-- ==== Sys2Proof/Word.lean ====
section
/-! DEFINITION. The widths of spec/00_scope.md R7, R8 and the two VFO names. -/

namespace Sys2Proof

/-- A slave register address: 7 bits, 0x00..0x7F (20 R60). -/
abbrev Addr := BitVec 7

/-- A slave register's content: one opaque 16-bit word (00 R12, 20 R64). -/
abbrev Word16 := BitVec 16

/-- A wire frame, `{rw, addr[6:0], data[15:0]}` (10 R27, 30 R81, R82). -/
abbrev Frame := BitVec 24

/-- An opaque 32-bit frequency word (30 R86, 42 R140). -/
abbrev Word32 := BitVec 32

/-- A host command word (30 R84). -/
abbrev CmdWord := BitVec 64

/-- The two VFO contexts (00 R7 `N_VFO` = 2). They are no agents: they select per-VFO state (60 R248). -/
inductive Vfo where
  | vfo0
  | vfo1
  deriving DecidableEq, Repr

end Sys2Proof
end

