-- ==== Sys2Proof/Config.lean ====
section
/-! DEFINITION. The parameters of spec/00_scope.md R7 and spec/93_implementation_defined.md section 3, the read oracle
of spec/20_memory.md R66, and the machine's own configuration: an opaque constant, so that a claim holds for every value
of the OPEN parameters that meets the spec's constraints. -/

namespace Sys2Proof

/-- The kind of a bus event (20 R68). -/
inductive EventKind where
  | wr
  | rd
  deriving DecidableEq, Repr

/-- Who caused a bus event: a host command, or the AGC unit inside an AGC_TICK of VFO `v` (20 R68). -/
inductive Origin where
  | host
  | agc (v : Vfo)
  deriving DecidableEq, Repr

/-- One completed transaction, as the history `h` records it (20 R68). -/
structure Event where
  seq    : Nat
  kind   : EventKind
  addr   : Addr
  value  : Word16
  origin : Origin
  deriving DecidableEq, Repr

/-- One entry of the gain table: the register word and the gain in whole dB (10 R30). -/
structure GainEntry where
  reg  : Word16
  gain : Int
  deriving DecidableEq, Repr

/-- The six squelch thresholds of SETSQ (42 R143); their widths are not in the source. -/
structure Squelch where
  rssiOpen    : Nat
  rssiClose   : Nat
  noiseOpen   : Nat
  noiseClose  : Nat
  glitchOpen  : Nat
  glitchClose : Nat
  deriving DecidableEq, Repr

/-- One register write of an expansion: the address and the word. -/
structure RegWord where
  addr : Addr
  word : Word16
  deriving DecidableEq, Repr

/-- The four register writes of SETSQ, in list order (42 R143). -/
structure SquelchWrites where
  first  : RegWord
  second : RegWord
  third  : RegWord
  fourth : RegWord
  deriving DecidableEq, Repr

/-- The addresses that a packing writes to, in list order. -/
def SquelchWrites.addrs (p : SquelchWrites) : List Addr := [p.first.addr, p.second.addr, p.third.addr, p.fourth.addr]

/-- The two readings of the CTCSS erratum (42 R152, D33). -/
inductive ErratumMode where
  | configWord
  | replaceDivisor
  deriving DecidableEq, Repr

/-- `GAIN_TABLE_LEN` (00 R7; an unaudited literal, 93 section 2). -/
abbrev gainTableLen : Nat := 42

/-- Entry `i` of a gain table, `G[i]` (10 R30). No index outside `0..41` is ever used (10 R32); there it is entry 0. -/
def gainEntryOf (t : Vector GainEntry gainTableLen) (i : Nat) : GainEntry := (t[i]?).getD t[0]

/-- Where the four gain-stage fields stand in a gain word: the lowest bit of each (`STAGE_FIELDS`, 42 R162). -/
structure StageFields where
  short : Nat
  lna   : Nat
  mix   : Nat
  pga   : Nat
  deriving DecidableEq, Repr

/-- The dB tables of the four gain stages, of 4, 8, 4 and 8 entries (`STAGE_DB`, 42 R162). -/
structure StageDb where
  short : Vector Int 4
  lna   : Vector Int 8
  mix   : Vector Int 4
  pga   : Vector Int 8
  deriving DecidableEq, Repr

/-- The gain of a word by the stage fields and tables, on numbers: each table at its field's value (42 R162). It states
the constraint that Config carries; the decode that GETGAINDB runs is `Machine.gainDecode`. -/
def stageGain (p : StageFields) (d : StageDb) (w : Word16) : Int :=
  d.short[w.toNat / 2 ^ p.short % 4]'(Nat.mod_lt _ (by decide)) + d.lna[w.toNat / 2 ^ p.lna % 8]'(Nat.mod_lt _ (by decide))
    + d.mix[w.toNat / 2 ^ p.mix % 4]'(Nat.mod_lt _ (by decide)) + d.pga[w.toNat / 2 ^ p.pga % 8]'(Nat.mod_lt _ (by decide))

/-- `SETTLE_CYCLES = ceil(T_SETTLE × F_CLK)` (00 R7), for a time in microseconds and a frequency in cycles of `clk` per
microsecond. -/
def settleCyclesOf (tSettle fClk : Rat) : Nat := ⌈tSettle * fClk⌉₊

/-- `TICK_PERIOD`, 10 ms, in microseconds (00 R7; an unaudited literal, 93 section 2). -/
abbrev tickPeriod : Nat := 10000

/-- The parameters of the block. Each constraint of 93 section 3 is a proof field, so a configuration that breaks one
has no meaning: none can be built (70 R271 for the settle bound). -/
structure Config where
  /-- `F_CLK`, in cycles of `clk` per microsecond. -/
  fClk : Rat
  /-- `T_SETTLE`, in microseconds. -/
  tSettle : Rat
  /-- `SETTLE_CYCLES`, how many cycles of `clk` a phase lasts (41 R121). -/
  settleCycles : Nat
  /-- `CS_ACTIVE_LOW` (D4). -/
  csActiveLow : Bool
  /-- `GAIN_TABLE` (10 R30). -/
  gainTable : Vector GainEntry gainTableLen
  /-- `RSSI_REG`, `RSSI_LSB`, `RSSI_WIDTH` (42 R159). -/
  rssiReg : Addr
  rssiLsb : Nat
  rssiWidth : Nat
  /-- `GAIN_REG` (43 R198). -/
  gainReg : Addr
  /-- `AGC_WRITE_ON_CHANGE` (D21). -/
  agcWriteOnChange : Bool
  /-- `STAGE_FIELDS` and `STAGE_DB` (42 R162). -/
  stageFields : StageFields
  stageDb : StageDb
  /-- `FREQ_LO_REG`, `FREQ_HI_REG` (42 R140). -/
  freqLoReg : Addr
  freqHiReg : Addr
  /-- The four squelch registers (20 R75; that SQ_PACK writes exactly these is log entry 17), and `SQ_PACK` (42 R143), `none` outside its domain. -/
  sqRegs : Vector Addr 4
  sqPack : Squelch → Option SquelchWrites
  /-- `AGC_CFG_REG`, `AGC_EN_BIT`, `AGC_MODE_LSB`, `AGC_EN_ACTIVE`, `AGC_MODE_AUTO` (42 R146). -/
  agcCfgReg : Addr
  agcEnBit : Nat
  agcModeLsb : Nat
  agcEnActive : Bool
  agcModeAuto : BitVec 3 → Bool
  /-- `TONE_REG` (42 R149). -/
  toneReg : Addr
  /-- `CTCSS_REG`, `CTCSS_WORD`, `CTCSS_ERRATUM_WORD`, `CTCSS_ERRATUM_MODE`, and the configuration register (42 R152). -/
  ctcssReg : Addr
  ctcssWord : Word16 → Word16
  ctcssErratumWord : Word16
  ctcssErratumMode : ErratumMode
  ctcssCfgReg : Addr
  ctcssCfgNormal : Word16
  ctcssCfgErratum : Word16
  /-- `CDCSS_REG`, `CDCSS_SEL_BIT` (42 R156). -/
  cdcssReg : Addr
  cdcssSelBit : Nat
  /-- The frequency auto-scan (20 R75, 42 R163); its enable sequence writes its enable register (log entry 17). -/
  fscanEnReg : Addr
  fscanEnSeq : List RegWord
  fscanR1 : Addr
  fscanR2 : Addr
  fscanDone : Word16 → Bool
  fscanHit : Word16 → Word16 → Bool
  fscanValue : Word16 → Word16 → Nat
  /-- The code auto-scan (20 R75, 42 R166), likewise. -/
  cscanEnReg : Addr
  cscanEnSeq : List RegWord
  cscanR1 : Addr
  cscanR2 : Addr
  cscanR3 : Addr
  cdcssHit : Word16 → Bool
  cdcssValue : Word16 → Word16 → Nat
  ctcssHit : Word16 → Bool
  ctcssValue : Word16 → Nat
  /-- `POLL_LIMIT` (42 R163). -/
  pollLimit : Nat
  /-- `Oracle.read(a, h)`, the slave's answer (20 R66): a free value for each address and history. -/
  oracle : Addr → List Event → Word16
  fClk_pos : 0 < fClk
  tSettle_min : 1 ≤ tSettle
  settle_ceil : settleCycles = settleCyclesOf tSettle fClk
  table_base : gainEntryOf gainTable 0 = ⟨0x03BE#16, -7⟩
  table_bottom : (gainEntryOf gainTable 1).gain = -93
  table_top : (gainEntryOf gainTable (gainTableLen - 1)).gain = 0
  table_ascending : ∀ i < gainTableLen - 1, 1 ≤ i → (gainEntryOf gainTable i).gain < (gainEntryOf gainTable (i + 1)).gain
  stages_consistent : ∀ i < gainTableLen,
    stageGain stageFields stageDb (gainEntryOf gainTable i).reg = (gainEntryOf gainTable i).gain
  sq_pack_regs : ∀ t p, sqPack t = some p → p.addrs = sqRegs.toList
  rssi_fits : rssiLsb + rssiWidth ≤ 16
  agc_en_fits : agcEnBit < 16
  agc_mode_fits : agcModeLsb + 3 ≤ 16
  agc_fields_disjoint : agcEnBit < agcModeLsb ∨ agcModeLsb + 3 ≤ agcEnBit
  ctcss_cfg_distinct : ctcssCfgNormal ≠ ctcssCfgErratum
  cdcss_sel_range : 12 ≤ cdcssSelBit ∧ cdcssSelBit ≤ 15
  poll_pos : 1 ≤ pollLimit
  fscan_enables : fscanEnReg ∈ fscanEnSeq.map RegWord.addr
  cscan_enables : cscanEnReg ∈ cscanEnSeq.map RegWord.addr
  regs_distinct : ([gainReg, rssiReg, freqLoReg, freqHiReg, agcCfgReg, toneReg, ctcssReg, ctcssCfgReg, cdcssReg,
    fscanEnReg, fscanR1, fscanR2, cscanEnReg, cscanR1, cscanR2, cscanR3] ++ sqRegs.toList).Nodup

/-- The test fixture `T1` of 43 R182. It is NOT the production table, which no source gives. -/
def fixtureT1 : Vector GainEntry gainTableLen :=
  #v[⟨0x03BE#16, -7⟩, ⟨0x0000#16, -93⟩, ⟨0x0100#16, -89⟩, ⟨0x0001#16, -87⟩, ⟨0x0110#16, -84⟩, ⟨0x0011#16, -82⟩,
     ⟨0x0029#16, -80⟩, ⟨0x0031#16, -77⟩, ⟨0x0003#16, -75⟩, ⟨0x000B#16, -73⟩, ⟨0x0032#16, -71⟩, ⟨0x0004#16, -69⟩,
     ⟨0x0005#16, -66⟩, ⟨0x000D#16, -64⟩, ⟨0x002C#16, -62⟩, ⟨0x002D#16, -59⟩, ⟨0x004C#16, -57⟩, ⟨0x0017#16, -55⟩,
     ⟨0x002F#16, -53⟩, ⟨0x004E#16, -51⟩, ⟨0x004F#16, -48⟩, ⟨0x006E#16, -46⟩, ⟨0x00AD#16, -44⟩, ⟨0x00AE#16, -41⟩,
     ⟨0x00CE#16, -39⟩, ⟨0x007F#16, -37⟩, ⟨0x00B7#16, -35⟩, ⟨0x00D7#16, -33⟩, ⟨0x00DF#16, -30⟩, ⟨0x00FF#16, -28⟩,
     ⟨0x01DF#16, -26⟩, ⟨0x02BF#16, -23⟩, ⟨0x02DF#16, -21⟩, ⟨0x02FF#16, -19⟩, ⟨0x0357#16, -17⟩, ⟨0x036F#16, -15⟩,
     ⟨0x0377#16, -12⟩, ⟨0x03AF#16, -10⟩, ⟨0x03CF#16, -8⟩, ⟨0x03D7#16, -5⟩, ⟨0x03F7#16, -3⟩, ⟨0x03FF#16, 0⟩]

/-- The test configuration of 95's conventions, with the candidate values of 93 I8 to I15 (general knowledge, for tests
only), under a chosen oracle and settle count. It also shows that the constraints of `Config` can be met. -/
def Config.fixture (oracle : Addr → List Event → Word16) : Config where
  fClk := 1
  tSettle := 1
  settleCycles := 1
  csActiveLow := true
  gainTable := fixtureT1
  rssiReg := 0x67#7
  rssiLsb := 0
  rssiWidth := 9
  gainReg := 0x13#7
  agcWriteOnChange := false
  stageFields := ⟨8, 5, 3, 0⟩
  stageDb := ⟨#v[-28, -24, -19, 0], #v[-24, -19, -14, -9, -6, -4, -2, 0], #v[-8, -6, -3, 0],
    #v[-33, -27, -21, -15, -9, -6, -3, 0]⟩
  freqLoReg := 0x38#7
  freqHiReg := 0x39#7
  sqRegs := #v[0x70#7, 0x71#7, 0x72#7, 0x73#7]
  sqPack := fun t => if t.rssiOpen < 256 ∧ t.rssiClose < 256 then
    some ⟨⟨0x70#7, 0x0102#16⟩, ⟨0x71#7, 0x0304#16⟩, ⟨0x72#7, 0x0506#16⟩, ⟨0x73#7, 0x0708#16⟩⟩ else none
  agcCfgReg := 0x7E#7
  agcEnBit := 15
  agcModeLsb := 12
  agcEnActive := true
  agcModeAuto := fun m => m == 0#3
  toneReg := 0x7D#7
  ctcssReg := 0x07#7
  ctcssWord := fun d => d
  ctcssErratumWord := 0x1234#16
  ctcssErratumMode := .configWord
  ctcssCfgReg := 0x51#7
  ctcssCfgNormal := 0x0001#16
  ctcssCfgErratum := 0x0002#16
  cdcssReg := 0x08#7
  cdcssSelBit := 15
  fscanEnReg := 0x32#7
  fscanEnSeq := [⟨0x32#7, 0x0001#16⟩]
  fscanR1 := 0x0D#7
  fscanR2 := 0x0E#7
  fscanDone := fun r => r.getLsbD 15
  fscanHit := fun r _ => r.getLsbD 14
  fscanValue := fun _ r => r.toNat
  cscanEnReg := 0x33#7
  cscanEnSeq := [⟨0x33#7, 0x0002#16⟩]
  cscanR1 := 0x68#7
  cscanR2 := 0x69#7
  cscanR3 := 0x6A#7
  cdcssHit := fun r => r.getLsbD 15
  cdcssValue := fun _ r => r.toNat
  ctcssHit := fun r => r.getLsbD 15
  ctcssValue := fun r => r.toNat
  pollLimit := 3
  oracle := oracle
  fClk_pos := by decide
  tSettle_min := by decide
  settle_ceil := by simp [settleCyclesOf]
  table_base := by decide
  table_bottom := by decide
  table_top := by decide
  table_ascending := by decide
  stages_consistent := by decide
  sq_pack_regs := fun t p h => by
    split at h
    · cases h; rfl
    · cases h
  rssi_fits := by decide
  agc_en_fits := by decide
  agc_mode_fits := by decide
  agc_fields_disjoint := by decide
  ctcss_cfg_distinct := by decide
  cdcss_sel_range := by decide
  poll_pos := by decide
  fscan_enables := by decide
  cscan_enables := by decide
  regs_distinct := by decide

/-- An uninterpreted configuration: an opaque constant with no body. `Inhabited Config` is only what Lean asks for to
admit the constant; nothing about its value can be proved but the constraints every `Config` carries. -/
opaque Config.uninterpreted [Inhabited Config] : Config

/-- The configuration of the machine: every OPEN parameter uninterpreted, and the three parameters the spec decides at
their decided values (00 R7; D4, D21, D33). -/
def Config.board : Config :=
  { @Config.uninterpreted ⟨Config.fixture fun _ _ => 0#16⟩ with
    csActiveLow := true
    agcWriteOnChange := false
    ctcssErratumMode := .configWord }

/-- Accept a settle configuration, or refuse it (70 R271, 93 U4): at least one cycle, and at least 1 microsecond. -/
def Config.settleAccepted (fClk : Rat) (settleCycles : Nat) : Bool :=
  1 ≤ settleCycles && decide (fClk ≤ (settleCycles : Rat))

end Sys2Proof
end

