-- ==== Sys2Proof/Syntax.lean ====
section
/-! DEFINITION. The instructions: one constructor for each row of spec/opcode_table.json. -/

namespace Sys2Proof

/-- The rows of the opcode table: three command words (30 R84), two wire frames (30 R81, R82) and fifteen
pseudo-operations of the register layer (30 R90, 42 R163, R166). Operands whose range the spec does not tie to a field
of a word are natural numbers; `Instr.wf` says which of them the operation accepts. -/
inductive Instr where
  /-- BUS_WRITE (41 R100): write `data` to the slave register `addr`. -/
  | busWrite (addr : Addr) (data : Word16)
  /-- BUS_READ (41 R110): read the slave register `addr`. -/
  | busRead (addr : Addr)
  /-- AGC_TICK (43 R190): one step of the gain controller of VFO `v`, receiving if `rx`, tuned to `freq`. -/
  | agcTick (v : Vfo) (rx : Bool) (freq : Word32)
  /-- FRAME_WRITE (30 R81): the frame of a write transaction. -/
  | frameWrite (addr : Addr) (data : Word16)
  /-- FRAME_READ (30 R82): the frame of a read transaction; the slave drives `data`. -/
  | frameRead (addr : Addr) (data : Word16)
  /-- SETFREQ (42 R140). -/
  | setFreq (f : Word32)
  /-- SETSQ (42 R143). -/
  | setSq (t : Squelch)
  /-- SETAGC (42 R146). -/
  | setAgc (en mode : Nat)
  /-- SETTONE (42 R149). -/
  | setTone (hz : Nat)
  /-- SETCTCSS (42 R152). -/
  | setCtcss (cw : Nat)
  /-- SETCDCSS (42 R156). -/
  | setCdcss (code : Nat)
  /-- GETRSSI (42 R159). -/
  | getRssi
  /-- SETGAIN (42 R160). -/
  | setGain (reg : Word16)
  /-- GETGAINDB (42 R161). -/
  | getGainDb
  /-- FSCAN_START (42 R163). -/
  | fscanStart
  /-- FSCAN_POLL (42 R163). -/
  | fscanPoll
  /-- FSCAN_WAIT (42 R163). -/
  | fscanWait
  /-- CSCAN_START (42 R166). -/
  | cscanStart
  /-- CSCAN_POLL (42 R166). -/
  | cscanPoll
  /-- CSCAN_WAIT (42 R166). -/
  | cscanWait
  deriving DecidableEq, Repr

end Sys2Proof
end

