-- ==== Sys2Proof/WellFormed.lean ====
section
/-! DEFINITION. Which operands are in their stated range (spec/60_exceptions.md R231). The field operands of the command
words and frames are in range by their types (30 R89). An instruction that is not well-formed still has a meaning: the
host-side refusal of 42 R171. -/

namespace Sys2Proof

/-- The operands are in the range for which the operation is not refused: SETSQ in the domain of SQ_PACK (42 R143),
SETAGC `en` ≤ 1 and `mode` ≤ 7 (42 R146), SETTONE `hz` ≤ 6347 (42 R149), SETCTCSS `cw` ≤ 31738 (42 R152), SETCDCSS
`code` < 2^23 (42 R156). -/
def Instr.wf (C : Config) : Instr → Bool
  | .busWrite _ _ => true
  | .busRead _ => true
  | .agcTick _ _ _ => true
  | .frameWrite _ _ => true
  | .frameRead _ _ => true
  | .setFreq _ => true
  | .setSq t => (C.sqPack t).isSome
  | .setAgc en mode => en ≤ 1 && mode ≤ 7
  | .setTone hz => hz ≤ 6347
  | .setCtcss cw => cw ≤ 31738
  | .setCdcss code => code < 2 ^ 23
  | .getRssi => true
  | .setGain _ => true
  | .getGainDb => true
  | .fscanStart => true
  | .fscanPoll => true
  | .fscanWait => true
  | .cscanStart => true
  | .cscanPoll => true
  | .cscanWait => true

end Sys2Proof
end

