-- ==== Sys2Proof/Decode.lean ====
section
/-! DEFINITION. The two encodings of spec/30_encoding.md: the host command word (R84 to R88) and the wire frame (R80 to
R83). Decoding first, then the encoder, then the numbered form the host of this row reads. -/

namespace Sys2Proof

/-- Why a command word is refused (30 R87). -/
inductive IllegalReason where
  /-- `op` = 00. -/
  | reservedOp
  /-- Bits 59:56 are not zero, or bit 55 is set. -/
  | reservedBits
  /-- A field the operation does not use is not zero. -/
  | unusedFieldNonZero
  deriving DecidableEq, Repr

/-- `c[hi:lo]` as `width` bits from bit `lo` (00 R8). -/
def bitsOf {w : Nat} (c : BitVec w) (lo width : Nat) : BitVec width := c.extractLsb' lo width

/-- VFO number `v`, a one-bit field (30 R84). -/
def vfoOfBit (b : Bool) : Vfo := if b then .vfo1 else .vfo0

/-- The one-bit field of a VFO (30 R84). -/
def Vfo.bit : Vfo → BitVec 1
  | .vfo0 => 0#1
  | .vfo1 => 1#1

/-- Decoding of a command word, total, in the order of tests of 30 R85. -/
def decodeWord (c : CmdWord) : Except IllegalReason Instr :=
  if bitsOf c 62 2 = 0#2 then .error .reservedOp
  else if bitsOf c 56 4 ≠ 0#4 ∨ bitsOf c 55 1 ≠ 0#1 then .error .reservedBits
  else if bitsOf c 62 2 = 1#2 then
    if bitsOf c 60 2 ≠ 0#2 ∨ bitsOf c 0 32 ≠ 0#32 then .error .unusedFieldNonZero
    else .ok (.busWrite (bitsOf c 48 7) (bitsOf c 32 16))
  else if bitsOf c 62 2 = 2#2 then
    if bitsOf c 60 2 ≠ 0#2 ∨ bitsOf c 0 48 ≠ 0#48 then .error .unusedFieldNonZero
    else .ok (.busRead (bitsOf c 48 7))
  else
    if bitsOf c 32 23 ≠ 0#23 then .error .unusedFieldNonZero
    else .ok (.agcTick (vfoOfBit (c.getLsbD 61)) (c.getLsbD 60) (bitsOf c 0 32))

/-- The read flag of a frame, bit 23, the first bit on the wire (30 R81, R82; 20 R60). -/
def frameIsRead (f : Frame) : Bool := f.getLsbD 23

/-- The register address of a frame, bits 22..16 (30 R81, R82). -/
def frameAddr (f : Frame) : Addr := bitsOf f 16 7

/-- The data bits of a frame, 15..0 (30 R81, R82). -/
def frameData (f : Frame) : Word16 := bitsOf f 0 16

/-- Decoding of a wire frame: every 24-bit pattern is exactly one frame (30 R83). -/
def decodeFrame (f : Frame) : Instr :=
  if frameIsRead f then .frameRead (frameAddr f) (frameData f) else .frameWrite (frameAddr f) (frameData f)

/-! ## The encoder -/

/-- The command word of BUS_WRITE (30 R84). -/
def busWriteWord (addr : Addr) (data : Word16) : CmdWord :=
  1#2 ++ 0#1 ++ 0#1 ++ 0#4 ++ 0#1 ++ addr ++ data ++ 0#32

/-- The command word of BUS_READ (30 R84). -/
def busReadWord (addr : Addr) : CmdWord :=
  2#2 ++ 0#1 ++ 0#1 ++ 0#4 ++ 0#1 ++ addr ++ 0#16 ++ 0#32

/-- The command word of AGC_TICK (30 R84). -/
def agcTickWord (v : Vfo) (rx : Bool) (freq : Word32) : CmdWord :=
  3#2 ++ v.bit ++ BitVec.ofBool rx ++ 0#4 ++ 0#1 ++ 0#7 ++ 0#16 ++ freq

/-- The write frame `{0, addr, data}` (30 R81). -/
def writeFrame (addr : Addr) (data : Word16) : Frame := 0#1 ++ addr ++ data

/-- The read frame `{1, addr, data}` (30 R82). -/
def readFrame (addr : Addr) (data : Word16) : Frame := 1#1 ++ addr ++ data

/-- The bits of an instruction: a 64-bit command word or a 24-bit wire frame. -/
inductive Encoded where
  | word (c : CmdWord)
  | frame (f : Frame)
  deriving DecidableEq, Repr

/-- The encoder. A pseudo-operation has no word of its own (30 R90). -/
def encode : Instr → Option Encoded
  | .busWrite addr data => some (.word (busWriteWord addr data))
  | .busRead addr => some (.word (busReadWord addr))
  | .agcTick v rx freq => some (.word (agcTickWord v rx freq))
  | .frameWrite addr data => some (.frame (writeFrame addr data))
  | .frameRead addr data => some (.frame (readFrame addr data))
  | .setFreq _ => none
  | .setSq _ => none
  | .setAgc _ _ => none
  | .setTone _ => none
  | .setCtcss _ => none
  | .setCdcss _ => none
  | .getRssi => none
  | .setGain _ => none
  | .getGainDb => none
  | .fscanStart => none
  | .fscanPoll => none
  | .fscanWait => none
  | .cscanStart => none
  | .cscanPoll => none
  | .cscanWait => none

/-- The instruction the decoder reads from an encoded one; `none` where the word is refused. -/
def decodeEncoded : Encoded → Option Instr
  | .word c =>
    match decodeWord c with
    | .ok i => some i
    | .error _ => none
  | .frame f => some (decodeFrame f)

/-- The bits `w` of a table row that has `nbits` bits: a command word has 64 and a wire frame 24 (30 R84, R80). -/
def encodedOfTable (nbits w : Nat) : Option Encoded :=
  if nbits = 64 then some (.word (BitVec.ofNat 64 w))
  else if nbits = 24 then some (.frame (BitVec.ofNat 24 w))
  else none

/-- The instruction the decoder reads from the bits `w` of a row of spec/opcode_table.json, bit 0 the least
significant. -/
def decodeTableWord (nbits w : Nat) : Option Instr :=
  match encodedOfTable nbits w with
  | some e => decodeEncoded e
  | none => none

/-! ## The opcode table's masks -/

/-- The `mask` and `match` of an instruction's row in spec/opcode_table.json; a pseudo-operation's row has neither. -/
def tableMaskMatch : Instr → Option (Nat × Nat)
  | .busWrite _ _ => some (0xFF800000FFFFFFFF, 0x4000000000000000)
  | .busRead _ => some (0xFF80FFFFFFFFFFFF, 0x8000000000000000)
  | .agcTick _ _ _ => some (0xCFFFFFFF00000000, 0xC000000000000000)
  | .frameWrite _ _ => some (0x800000, 0x000000)
  | .frameRead _ _ => some (0x800000, 0x800000)
  | .setFreq _ => none
  | .setSq _ => none
  | .setAgc _ _ => none
  | .setTone _ => none
  | .setCtcss _ => none
  | .setCdcss _ => none
  | .getRssi => none
  | .setGain _ => none
  | .getGainDb => none
  | .fscanStart => none
  | .fscanPoll => none
  | .fscanWait => none
  | .cscanStart => none
  | .cscanPoll => none
  | .cscanWait => none

/-- The bits of an encoded instruction as a number. -/
def Encoded.toNat : Encoded → Nat
  | .word c => c.toNat
  | .frame f => f.toNat

end Sys2Proof
end

