-- ==== Sys2Proof/Machine/State.lean ====
section
/-! DEFINITION. The state of the block, of the history, and of the host's side of the command port (spec/10_state.md,
spec/20_memory.md R68), its values at power-on (10 R37, 70 R261), and the reasons a step can stop. -/

namespace Sys2Proof.Machine

/-- The command in progress (10 R26). -/
inductive Op where
  | none
  | write
  | read
  | agcTick
  deriving DecidableEq, Repr

/-- The phases of the wire sequencer (10 R26, 41 R122). -/
inductive Phase where
  | idle
  | pre
  | aSetup
  | aHigh
  | aLow
  | gap
  | ta
  | dSetup
  | dHigh
  | dLow
  | rHigh
  | rLow
  | tail
  | post
  deriving DecidableEq, Repr

/-- The step inside an AGC_TICK (10 R26, 43 R199). -/
inductive AgcStep where
  | rdRssi
  | compute
  | wrGain
  | done
  deriving DecidableEq, Repr

/-- The sequencer position, the block's place of execution (10 R26). -/
structure Pos where
  op      : Op
  phase   : Phase
  bit     : Nat
  agcStep : AgcStep
  deriving DecidableEq, Repr

/-- The pin registers (10 R20, R28): levels on the pins, and the output enable of `SDA`. -/
structure Pins where
  cs     : Bool
  sck    : Bool
  sdaOut : Bool
  sdaOe  : Bool
  deriving DecidableEq, Repr

/-- The status of a response (10 R23); code 3 is reserved and never produced. -/
inductive RspStatus where
  | ok
  | refused
  | skipped
  deriving DecidableEq, Repr

/-- The response port (10 R23). -/
structure Rsp where
  valid  : Bool
  status : RspStatus
  rdata  : Word16
  deriving DecidableEq, Repr

/-- The gain tracker of one VFO (10 R31). -/
structure Tracker where
  idx      : Nat
  prevIdx  : Option Nat
  prevRssi : Nat
  hold     : Nat
  deriving DecidableEq, Repr

/-- What a frequency scan gives the host (42 R163). -/
inductive FscanResult where
  | found (value : Nat)
  | notFound
  | busy
  | timeout
  deriving DecidableEq, Repr

/-- What a code scan gives the host (42 R166). -/
inductive CscanResult where
  | foundCdcss (code : Nat)
  | foundCtcss (value : Nat)
  | notFound
  | timeout
  deriving DecidableEq, Repr

/-- What the last pseudo-operation gave the host: nothing yet, completion of an operation with no result, the host-side
refusal of 42 R171, or the operation's result. -/
inductive HostResult where
  | none
  | done
  | refused
  | rssi (raw : Nat)
  | gainDb (db : Int)
  | fscan (r : FscanResult)
  | cscan (r : CscanResult)
  deriving DecidableEq, Repr

/-- A pending move of the host. -/
inductive Request where
  /-- A cycle of `rst` = 1 between commands (70 R260). -/
  | rst
  /-- A command word offered on the command port (10 R22). -/
  | word (c : CmdWord)
  /-- A line of assembler (30 R89) or a pseudo-operation (30 R90). -/
  | line (i : Instr)
  /-- A bare wire frame: the model's own move, for the two frame rows of the opcode table (log entry 3). -/
  | frame (f : Frame)
  deriving DecidableEq, Repr

/-- The state. The fields up to `devUndefined` are the spec's architectural state (10 R26 to R35), `history` is its
record of the bus (20 R68), and the last three are the model's own: the host's side of the ports. -/
structure State where
  pos          : Pos
  txFrame      : Frame
  rxShift      : Word16
  settle       : Nat
  cmdLatch     : CmdWord
  agcRaw       : Word16
  pins         : Pins
  rsp          : Rsp
  trk0         : Tracker
  trk1         : Tracker
  lastFreq0    : Option Word32
  lastFreq1    : Option Word32
  gainDiff     : Int
  devUndefined : Bool
  history      : List Event
  port         : List Request
  hostResult   : HostResult
  refusal      : Option IllegalReason
  deriving DecidableEq, Repr

/-- A fault of a step. The block has no trap and no fault output (00 R11, 60 R234), and its one undefined condition is
the mark `devUndefined` in State (70 R262), so there is no reason to list: nobody raises one. -/
inductive Fault where
  deriving DecidableEq, Repr

/-- A refusal of a step. An illegal command word is not one: it gets the response REFUSED and the machine goes on
(60 R230). -/
inductive Refusal where
  /-- Raised by exec's arm for an instruction that has no meaning yet; safe. No arm raises it. -/
  | notModelled (mnemonic : String)
  deriving DecidableEq, Repr

/-- `(NONE, IDLE, 0, DONE)`, the position between commands (10 R37). -/
def Pos.start : Pos := ⟨.none, .idle, 0, .done⟩

/-- A tracker at reset (10 R37). -/
def Tracker.start : Tracker := ⟨0, none, 0, 0⟩

/-- The state at power-on (10 R37, 70 R261) of a block with configuration `C`: `cs` deasserted, `SDA` driven with 0, an
empty history, and no request pending. -/
def State.powerOn (C : Config) : State where
  pos          := Pos.start
  txFrame      := 0#24
  rxShift      := 0#16
  settle       := 0
  cmdLatch     := 0#64
  agcRaw       := 0#16
  pins         := ⟨C.csActiveLow, false, false, true⟩
  rsp          := ⟨false, .ok, 0#16⟩
  trk0         := Tracker.start
  trk1         := Tracker.start
  lastFreq0    := none
  lastFreq1    := none
  gainDiff     := 0
  devUndefined := false
  history      := []
  port         := []
  hostResult   := .none
  refusal      := none

/-- The machine right after reset: the power-on state of the machine's own configuration (70 R261). -/
def State.reset : State := State.powerOn Config.board

end Sys2Proof.Machine
end

