-- ==== Sys2Proof/Machine/Wire.lean ====
section
/-! DEFINITION. The wire sequencer of spec/41_bus.md: the phases and their pin values (R120, R122), the two phase
sequences (R123, R124), read sampling (R125) and what the slave presents and captures (R126). -/

namespace Sys2Proof.Machine

/-- A phase together with the frame bit it belongs to. -/
abbrev Slot := Phase × Nat

/-- The level of `CS` (41 R120). -/
def csLevel (C : Config) (asserted : Bool) : Bool := if asserted then !C.csActiveLow else C.csActiveLow

/-- Frame bit `b`, counted from the first bit sent (41 R122). -/
def frameBit (f : Frame) (b : Nat) : Bool := f.getLsbD (23 - b)

/-- The pins in a phase (41 R122); `held` is the previous value of `sda_out`. DESIGN CHOICE (log entry 31): `SDA` is driven
again at the start of `POST`, together with the rise of `CS`, as the table of R122 has it; R124 also says "one `T_SETTLE`
after `CS` is released". -/
def phasePins (C : Config) (f : Frame) (ph : Phase) (b : Nat) (held : Bool) : Pins :=
  match ph with
  | .idle   => ⟨csLevel C false, false, held, true⟩
  | .pre    => ⟨csLevel C false, false, held, true⟩
  | .aSetup => ⟨csLevel C true, false, frameBit f b, true⟩
  | .aHigh  => ⟨csLevel C true, true, frameBit f b, true⟩
  | .aLow   => ⟨csLevel C true, false, frameBit f b, true⟩
  | .gap    => ⟨csLevel C true, false, held, true⟩
  | .ta     => ⟨csLevel C true, false, held, false⟩
  | .dSetup => ⟨csLevel C true, false, frameBit f b, true⟩
  | .dHigh  => ⟨csLevel C true, true, frameBit f b, true⟩
  | .dLow   => ⟨csLevel C true, false, frameBit f b, true⟩
  | .rHigh  => ⟨csLevel C true, true, held, false⟩
  | .rLow   => ⟨csLevel C true, false, held, false⟩
  | .tail   => ⟨csLevel C true, false, held, !frameIsRead f⟩
  | .post   => ⟨csLevel C false, false, held, true⟩

/-- The phases of a transaction in which `CS` is asserted, `A_SETUP(0)` to `TAIL` (70 R262). -/
def csAsserted : Phase → Bool
  | .idle | .pre | .post => false
  | .aSetup | .aHigh | .aLow | .gap | .ta | .dSetup | .dHigh | .dLow | .rHigh | .rLow | .tail => true

/-- The eight address bits, three phases each (41 R123, R124). -/
def addrSlots : List Slot :=
  (List.range 8).flatMap fun b => [(.aSetup, b), (.aHigh, b), (.aLow, b)]

/-- `WriteSeq` (41 R123). -/
def writeSeq : List Slot :=
  (.pre, 0) :: addrSlots ++ [(.gap, 7)]
    ++ ((List.range 16).flatMap fun k => [(.dSetup, 8 + k), (.dHigh, 8 + k), (.dLow, 8 + k)])
    ++ [(.tail, 23), (.post, 23)]

/-- `ReadSeq` (41 R124). -/
def readSeq : List Slot :=
  (.pre, 0) :: addrSlots ++ [(.gap, 7), (.ta, 7)]
    ++ ((List.range 16).flatMap fun k => [(.rHigh, 8 + k), (.rLow, 8 + k)])
    ++ [(.tail, 23), (.post, 23)]

/-- The phase sequence of a frame: `ReadSeq` if its read flag is set, else `WriteSeq`. -/
def frameSeq (f : Frame) : List Slot := if frameIsRead f then readSeq else writeSeq

/-- The phase that follows in a transaction with read flag `rd`; `none` after `POST` (41 R123, R124). -/
def nextSlot (rd : Bool) (ph : Phase) (b : Nat) : Option Slot :=
  match ph with
  | .idle   => none
  | .pre    => some (.aSetup, 0)
  | .aSetup => some (.aHigh, b)
  | .aHigh  => some (.aLow, b)
  | .aLow   => if b < 7 then some (.aSetup, b + 1) else some (.gap, b)
  | .gap    => if rd then some (.ta, b) else some (.dSetup, b + 1)
  | .ta     => some (.rHigh, b + 1)
  | .dSetup => some (.dHigh, b)
  | .dHigh  => some (.dLow, b)
  | .dLow   => if b < 23 then some (.dSetup, b + 1) else some (.tail, b)
  | .rHigh  => some (.rLow, b)
  | .rLow   => if b < 23 then some (.rHigh, b + 1) else some (.tail, b)
  | .tail   => some (.post, b)
  | .post   => none

/-- The bit of `rxShift` that is sampled in the last cycle of a phase (41 R125). -/
def sampleIndex (ph : Phase) (b : Nat) : Option Nat :=
  match ph with
  | .ta   => some 15
  | .rLow => if b ≤ 22 then some (22 - b) else none
  | .idle | .pre | .aSetup | .aHigh | .aLow | .gap | .dSetup | .dHigh | .dLow | .rHigh | .tail | .post => none

/-- A 16-bit word with bit `i` replaced. -/
def setBit16 (v : Word16) (i : Nat) (b : Bool) : Word16 :=
  if b then v ||| (1#16 <<< i) else v &&& ~~~(1#16 <<< i)

/-- `rxShift` after the last cycle of a phase in which the line shows `line` (41 R125). -/
def sampleInto (ph : Phase) (b : Nat) (line : Bool) (rx : Word16) : Word16 :=
  match sampleIndex ph b with
  | some i => setBit16 rx i line
  | none   => rx

/-- What a slave that keeps to 41 R126 has on the line at the end of a phase, when its answer is `answer`. Outside the
sampled phases the line is not looked at. -/
def slaveLine (answer : Word16) (ph : Phase) (b : Nat) : Bool :=
  match sampleIndex ph b with
  | some i => answer.getLsbD i
  | none   => false

/-- One phase of a transaction: the pins take the phase's values, and its last cycle samples (41 R122, R125). -/
def runSlot (C : Config) (f : Frame) (answer : Word16) (a : Pins × Word16) (sl : Slot) : Pins × Word16 :=
  (phasePins C f sl.1 sl.2 a.1.sdaOut, sampleInto sl.1 sl.2 (slaveLine answer sl.1 sl.2) a.2)

/-- The pins and `rxShift` after a whole transaction against a slave that answers `answer` (41 R123 to R126). -/
def runWire (C : Config) (f : Frame) (answer : Word16) (a : Pins × Word16) : Pins × Word16 :=
  (frameSeq f).foldl (runSlot C f answer) a

/-- The pins in each phase of a sequence, in order, from the pins `p` before it. -/
def wave (C : Config) (f : Frame) (p : Pins) : List Slot → List Pins
  | [] => []
  | sl :: rest => phasePins C f sl.1 sl.2 p.sdaOut :: wave C f (phasePins C f sl.1 sl.2 p.sdaOut) rest

/-- Whether `CS` is asserted at the pins. -/
def Pins.selected (C : Config) (p : Pins) : Bool := p.cs == csLevel C true

/-- The pins at each rising edge of `SCK` in a wave that starts after the pins `p`. -/
def risingEdges (p : Pins) : List Pins → List Pins
  | [] => []
  | q :: rest => if !p.sck && q.sck then q :: risingEdges q rest else risingEdges q rest

/-- The bits a slave captures: `SDA` at each rising edge of `SCK` while `CS` is asserted and the master drives `SDA`
(41 R126.1, R126.2). -/
def capturedBits (C : Config) (p : Pins) (w : List Pins) : List Bool :=
  ((risingEdges p w).filter fun q => q.selected C && q.sdaOe).map Pins.sdaOut

end Sys2Proof.Machine
end

