-- ==== Sys2Proof/Machine/Ops.lean ====
section
/-! DEFINITION. The named operations over the state: the accessors of the per-VFO state, the history, the responses, a
bus transaction (spec/41_bus.md R100, R110), and reset (spec/70_reset_and_hazards.md R260 to R263). The block takes no
exception and returns from none (spec/60_exceptions.md R234, R237, R238); its one abnormal outcome is `refuse` (R230). -/

namespace Sys2Proof.Machine

/-! ## Per-VFO state -/

/-- The tracker of VFO `v` (10 R31). -/
def State.trk (s : State) : Vfo → Tracker
  | .vfo0 => s.trk0
  | .vfo1 => s.trk1

/-- Replace the tracker of VFO `v`, and no other (43 R190). -/
def State.setTrk (s : State) (v : Vfo) (t : Tracker) : State :=
  match v with
  | .vfo0 => { s with trk0 := t }
  | .vfo1 => { s with trk1 := t }

/-- The last-seen frequency of VFO `v` (10 R33). -/
def State.lastFreq (s : State) : Vfo → Option Word32
  | .vfo0 => s.lastFreq0
  | .vfo1 => s.lastFreq1

/-- Store the last-seen frequency of VFO `v` (43 R191). -/
def State.setLastFreq (s : State) (v : Vfo) (f : Word32) : State :=
  match v with
  | .vfo0 => { s with lastFreq0 := some f }
  | .vfo1 => { s with lastFreq1 := some f }

/-! ## History -/

/-- Append the event of a completed transaction; `seq` is its position in the total order (20 R68, R70). -/
def State.record (s : State) (kind : EventKind) (addr : Addr) (value : Word16) (origin : Origin) : State :=
  { s with history := s.history ++ [⟨s.history.length, kind, addr, value, origin⟩] }

/-- The canonical form of a history: the event at position `i` has `seq` = `i` (20 R68). -/
def historyWf (h : List Event) : Bool :=
  h.map Event.seq == List.range h.length

/-- The origin of the transaction in progress: the AGC unit inside an AGC_TICK, of the VFO of the latched command, else
the host (20 R68). -/
def State.origin (s : State) : Origin :=
  if s.pos.op = .agcTick then .agc (vfoOfBit (s.cmdLatch.getLsbD 61)) else .host

/-! ## Acceptance and responses -/

/-- Latch an accepted command word (41 R129); the response pulse of an earlier command is over (10 R23). -/
def State.latch (s : State) (c : CmdWord) : State :=
  { s with cmdLatch := c, rsp := { s.rsp with valid := false } }

/-- Complete a command: back in IDLE, with the response pulse (41 R129). -/
def State.respond (s : State) (status : RspStatus) (rdata : Word16) : State :=
  { s with pos := Pos.start, settle := 0, rsp := ⟨true, status, rdata⟩, refusal := none }

/-- Refuse an accepted command word: the response REFUSED with data 0, the reason kept by the model (60 R230). -/
def State.refuse (s : State) (reason : IllegalReason) : State :=
  { s with pos := Pos.start, settle := 0, rsp := ⟨true, .refused, 0#16⟩, refusal := some reason }

/-- Back in IDLE with no response: what ends a bare frame (log entry 3). -/
def State.endFrame (s : State) : State :=
  { s with pos := Pos.start, settle := 0, rsp := { s.rsp with valid := false } }

/-- One cycle in IDLE in which no command is offered: the response pulse ends (10 R23). -/
def State.idleCycle (s : State) : State :=
  { s with rsp := { s.rsp with valid := false } }

/-- What the host learns from a pseudo-operation. -/
def State.give (s : State) (r : HostResult) : State :=
  { s with hostResult := r }

/-! ## Transactions -/

/-- One bus transaction at the transaction level: the whole frame runs on the wire against a slave that answers
`answer`, and its event is appended. A read's value is what was sampled; a write's is what was sent (41 R100, R110). -/
def transact (C : Config) (f : Frame) (answer : Word16) (origin : Origin) (s : State) : State :=
  { s with
    txFrame := f
    pins    := (runWire C f answer (s.pins, s.rxShift)).1
    rxShift := (runWire C f answer (s.pins, s.rxShift)).2
    history := (s.record (if frameIsRead f then .rd else .wr) (frameAddr f)
      (if frameIsRead f then (runWire C f answer (s.pins, s.rxShift)).2 else frameData f) origin).history }

/-- `RegWrite(a, v)` (00 R10): one write transaction. -/
def regWrite (C : Config) (addr : Addr) (data : Word16) (origin : Origin) (s : State) : State :=
  transact C (writeFrame addr data) 0#16 origin s

/-- `RegRead(a)` (00 R10): one read transaction; the slave's answer is the oracle's for the history so far (20 R66). The
result stands in `rxShift`. -/
def regRead (C : Config) (addr : Addr) (origin : Origin) (s : State) : State :=
  transact C (readFrame addr 0#16) (C.oracle addr s.history) origin s

/-! ## Reset -/

/-- One cycle with `rst` = 1 (70 R260, R262, R263): every element of 10 R37 takes its reset value, but `devUndefined`,
which is set if `CS` was asserted and otherwise kept. No event is appended. DESIGN CHOICE (log entry 33): the outputs are
registers, so they stand at their reset values from the cycle after the first with `rst` = 1 (R262: "in the next cycle"),
and a pulse or pin of the state before shows in that first one; R260 also says "in every cycle with `rst` = 1". -/
def resetBlock (C : Config) (s : State) : State :=
  { State.powerOn C with
    devUndefined := s.devUndefined || csAsserted s.pos.phase
    history      := s.history
    port         := s.port
    hostResult   := s.hostResult }

end Sys2Proof.Machine
end

