-- ==== Sys2Proof/Machine/Operands.lean ====
section
/-! DEFINITION. The operand forms and conversions: the unaudited literals of spec/93_implementation_defined.md section 2
under their names, the tone, CTCSS, CDCSS, RSSI and gain conversions of spec/42_register_ops.md, and the AGC status word
(R146). Arithmetic is on integers (00 R9). -/

namespace Sys2Proof.Machine

/-! ## Named literals (00 R2, 93 section 2) -/

/-- `TARGET_RAW` = (−89 + 160) × 2 (43 R184). -/
def targetRaw : Int := (-89 + 160) * 2

/-- `HOLD_TICKS` (43 R195, R196). -/
def holdTicks : Nat := 30

/-- `COARSE_DB` (43 R195). -/
def coarseDb : Int := 10

/-- `COARSE_MARGIN_DB` (43 R195). -/
def coarseMarginDb : Int := 8

/-- `HYST_DB` (43 R196). -/
def hystDb : Int := -6

/-- The control word with the hardware erratum (42 R152). -/
def erratumControlWord : Nat := 2625

/-! ## Tone and CTCSS -/

/-- `ToneWord(hz)` (42 R150). -/
def toneWord (hz : Nat) : Nat := (hz * 1353245 + 2 ^ 16) / 2 ^ 17

/-- `CtcssDiv(cw)` (42 R153). -/
def ctcssDiv (cw : Nat) : Nat := (cw * 206488 + 50000) / 100000

/-- `CtcssFreq(d)`, the inverse of the round-trip property (42 R154). -/
def ctcssFreq (d : Nat) : Nat := (d * 100000 + 103244) / 206488

/-! ## CDCSS -/

/-- The low half with select 0 (42 R156). -/
def cdcssLow (C : Config) (code : BitVec 23) : Word16 :=
  (bitsOf code 0 12).zeroExtend 16 ||| (0#16 <<< C.cdcssSelBit)

/-- The high half with select 1 (42 R156). -/
def cdcssHigh (C : Config) (code : BitVec 23) : Word16 :=
  (bitsOf code 12 11).zeroExtend 16 ||| (1#16 <<< C.cdcssSelBit)

/-! ## The AGC status word -/

/-- The read-modify-write of SETAGC: the two fields replaced, the other bits kept (42 R146). -/
def agcCfgWord (C : Config) (w : Word16) (en mode : Nat) : Word16 :=
  (w &&& ~~~((1#16 <<< C.agcEnBit) ||| (7#16 <<< C.agcModeLsb)))
    ||| (BitVec.ofNat 16 en <<< C.agcEnBit) ||| (BitVec.ofNat 16 mode <<< C.agcModeLsb)

/-- Whether a status word says that the AGC is enabled, by the active level `AGC_EN_ACTIVE` (42 R146). -/
def agcCfgEnabled (C : Config) (w : Word16) : Bool := w.getLsbD C.agcEnBit == C.agcEnActive

/-- Whether a status word's mode field is one of the automatic modes `AGC_MODE_AUTO` (42 R146). -/
def agcCfgAutomatic (C : Config) (w : Word16) : Bool := C.agcModeAuto (bitsOf w C.agcModeLsb 3)

/-! ## RSSI and gain -/

/-- The raw RSSI in a word: `(w >> RSSI_LSB) & (2^RSSI_WIDTH − 1)` (42 R159). -/
def rssiField (C : Config) (w : Word16) : Nat := (w.toNat >>> C.rssiLsb) &&& (2 ^ C.rssiWidth - 1)

/-- `dBm = raw/2 − 160`, exact (42 R159, 43 R184). -/
def rssiDbm (raw : Nat) : Rat := (raw : Rat) / 2 - 160

/-- Gain-table entry `i`, `G[i]` (10 R30). -/
def gainEntry (C : Config) (i : Nat) : GainEntry := gainEntryOf C.gainTable i

/-- `GainDecode` with the field positions and tables given (42 R162). -/
def stageSum (p : StageFields) (d : StageDb) (w : Word16) : Int :=
  d.short[(bitsOf w p.short 2).toFin] + d.lna[(bitsOf w p.lna 3).toFin]
    + d.mix[(bitsOf w p.mix 2).toFin] + d.pga[(bitsOf w p.pga 3).toFin]

/-- `GainDecode(w)`, in dB (42 R162). -/
def gainDecode (C : Config) (w : Word16) : Int := stageSum C.stageFields C.stageDb w

/-- A consistent stage parameter set decodes every table entry to its gain (42 R162, 93 section 3): the constraint
`stages_consistent` of Config, said of the decode. -/
abbrev stagesConsistent (C : Config) : Prop :=
  ∀ i < gainTableLen, gainDecode C (gainEntry C i).reg = (gainEntry C i).gain

end Sys2Proof.Machine
end

