-- ==== Sys2Proof/Machine/Flags.lean ====
section
/-! DEFINITION. The block keeps no flags and no condition codes (spec/10_state.md R29). This file holds what it has in
their place: the derived single-bit statuses, the status code, and the continuously driven readouts (R22 to R24). -/

namespace Sys2Proof.Machine

/-- No command is in progress: the sequencer is in IDLE, and in no COMPUTE cycle (10 R22, 43 R199). -/
def State.idle (s : State) : Bool := s.pos.phase == .idle && s.pos.agcStep != .compute

/-- `cmd_ready`: 1 exactly when the sequencer is in IDLE and `rst` = 0 (10 R22). -/
def State.cmdReady (s : State) (rst : Bool) : Bool := s.idle && !rst

/-- `rsp_status[1:0]` (10 R23). -/
def RspStatus.code : RspStatus → BitVec 2
  | .ok => 0#2
  | .refused => 1#2
  | .skipped => 2#2

/-- `gain_diff_out` (10 R24). -/
def State.gainDiffOut (s : State) : Int := s.gainDiff

/-- `applied_valid_out[v]` (10 R24). -/
def State.appliedValidOut (s : State) (v : Vfo) : Bool := (s.trk v).prevIdx.isSome

/-- `applied_idx_out[v]`; 0 while not valid (10 R24). -/
def State.appliedIdxOut (s : State) (v : Vfo) : Nat := (s.trk v).prevIdx.getD 0

/-- `applied_reg_out[v]`; 0 while not valid (10 R24). -/
def State.appliedRegOut (C : Config) (s : State) (v : Vfo) : Word16 :=
  match (s.trk v).prevIdx with
  | some i => (gainEntry C i).reg
  | none => 0#16

end Sys2Proof.Machine
end

