-- ==== Sys2Proof/Machine/Bus.lean ====
section
/-! DEFINITION. The bus commands BUS_WRITE and BUS_READ (spec/41_bus.md R100, R110), the two wire frames
(spec/30_encoding.md R81, R82), and the software calls they stand for (41 R131). -/

namespace Sys2Proof.Machine

/-- BUS_WRITE(addr, data) (41 R100, R101). -/
def busWriteOn (C : Config) (addr : Addr) (data : Word16) (s : State) : State :=
  (regWrite C addr data .host (s.latch (busWriteWord addr data))).respond .ok 0#16

/-- The read transaction of BUS_READ, before its response (41 R110). -/
def busReadTransaction (C : Config) (addr : Addr) (s : State) : State :=
  regRead C addr .host (s.latch (busReadWord addr))

/-- BUS_READ(addr): the response carries the word that was sampled (41 R110). -/
def busReadOn (C : Config) (addr : Addr) (s : State) : State :=
  (busReadTransaction C addr s).respond .ok (busReadTransaction C addr s).rxShift

/-- A write frame on the wire (30 R81, 41 R123). -/
def frameWriteOn (C : Config) (addr : Addr) (data : Word16) (s : State) : State :=
  (transact C (writeFrame addr data) 0#16 s.origin s).endFrame

/-- A read frame on the wire whose data bits the slave drives (30 R82, 41 R124); the sent frame's data are 0 (10 R27). -/
def frameReadOn (C : Config) (addr : Addr) (data : Word16) (s : State) : State :=
  (transact C (readFrame addr 0#16) data s.origin s).endFrame

/-- The software calls of a list of register writes, in order (42 R143, R163, R166). -/
def writeAllOn (C : Config) : List RegWord → State → State
  | [], s => s
  | r :: rest, s => writeAllOn C rest (busWriteOn C r.addr r.word s)

/-- BUS_WRITE. -/
def execBusWrite (addr : Addr) (data : Word16) (s : State) : Host.Outcome State Fault Refusal :=
  .next (busWriteOn Config.board addr data s)

/-- BUS_READ. -/
def execBusRead (addr : Addr) (s : State) : Host.Outcome State Fault Refusal :=
  .next (busReadOn Config.board addr s)

/-- FRAME_WRITE. -/
def execFrameWrite (addr : Addr) (data : Word16) (s : State) : Host.Outcome State Fault Refusal :=
  .next (frameWriteOn Config.board addr data s)

/-- FRAME_READ. -/
def execFrameRead (addr : Addr) (data : Word16) (s : State) : Host.Outcome State Fault Refusal :=
  .next (frameReadOn Config.board addr data s)

end Sys2Proof.Machine
end

