-- ==== Sys2Proof/Machine/Agc.lean ====
section
/-! DEFINITION. The AGC gain-feedback controller: the eight steps of AGC_TICK (spec/43_agc.md R190 to R198). -/

namespace Sys2Proof.Machine

/-- The tracker after the frequency-change reset; `prevIdx` is kept (43 R191). -/
def trackerFreqReset (t : Tracker) : Tracker := { t with idx := 0, hold := 0, prevRssi := 0 }

/-- Step 1: reset the tracker if the tuned frequency changed (43 R191). -/
def agcStep1 (v : Vfo) (freq : Word32) (s : State) : State :=
  if s.lastFreq v = some freq then s
  else (s.setLastFreq v freq).setTrk v (trackerFreqReset (s.trk v))

/-- Step 2, the smoothed reading: the mean with the previous reading if that is positive (43 R192). -/
def agcSmooth (t : Tracker) (new : Nat) : Nat :=
  if t.prevRssi > 0 then (t.prevRssi + new) / 2 else new

/-- Step 2, the stored reading (43 R192). -/
def agcStore (new : Nat) (t : Tracker) : Tracker := { t with prevRssi := new }

/-- Step 3: count the hold down (43 R193). -/
def agcStep3 (t : Tracker) : Tracker :=
  if t.hold ≠ 0 then { t with hold := t.hold - 1 } else t

/-- Step 4: the distance from the target in whole dB, truncated toward zero (43 R194). -/
def agcDiff (rssi : Nat) : Int := ((rssi : Int) - targetRaw).tdiv 2

/-- The coarse walk of step 5: from `i` down while `i > 1` and the entry is above `desired` (43 R195). -/
def coarseWalk (C : Config) (desired : Int) : Nat → Nat
  | 0 => 0
  | i + 1 => if i + 1 > 1 ∧ (gainEntry C (i + 1)).gain > desired then coarseWalk C desired i else i + 1

/-- The index step 5 chooses when `diff > 0` (43 R195). -/
def attenuatedIdx (C : Config) (diff : Int) (idx : Nat) : Nat :=
  max 1 (if diff ≥ coarseDb
    then coarseWalk C ((gainEntry C idx).gain - diff + coarseMarginDb) idx
    else idx - 1)

/-- Step 5: attenuate (43 R195). -/
def agcStep5 (C : Config) (diff : Int) (t : Tracker) : Tracker :=
  if diff > 0 then
    if attenuatedIdx C diff t.idx ≠ t.idx then { t with idx := attenuatedIdx C diff t.idx, hold := holdTicks } else t
  else t

/-- Step 6: hysteresis (43 R196). -/
def agcStep6 (diff : Int) (t : Tracker) : Tracker :=
  if diff ≥ hystDb then { t with hold := holdTicks } else t

/-- Step 7: relax (43 R197). -/
def agcStep7 (t : Tracker) : Tracker :=
  if t.hold = 0 then { t with idx := min (t.idx + 1) (gainTableLen - 1) } else t

/-- Steps 2 (after the read) to 7 on a tracker, for the raw reading `new`: the work of the COMPUTE cycle (43 R199). -/
def agcCompute (C : Config) (new : Nat) (t : Tracker) : Tracker :=
  agcStep7 (agcStep6 (agcDiff (agcSmooth t new))
    (agcStep5 C (agcDiff (agcSmooth t new)) (agcStep3 (agcStore new t))))

/-- Whether step 8 writes: always, unless `AGC_WRITE_ON_CHANGE` and the index is the one last applied (43 R198). -/
def agcWrites (C : Config) (t : Tracker) : Bool :=
  !C.agcWriteOnChange || t.prevIdx != some t.idx

/-- Step 8 without its transaction: the compensation offset, and the applied index (43 R198). -/
def agcApply (C : Config) (v : Vfo) (s : State) : State :=
  { s.setTrk v { s.trk v with prevIdx := some (s.trk v).idx } with
    gainDiff := (gainEntry C 0).gain - (gainEntry C (s.trk v).idx).gain }

/-- Step 8 (43 R198). -/
def agcStep8 (C : Config) (v : Vfo) (s : State) : State :=
  if agcWrites C (s.trk v)
  then agcApply C v (regWrite C C.gainReg (gainEntry C (s.trk v).idx).reg (.agc v) s)
  else s

/-- The RSSI read of step 2; `agcRaw` takes the word (43 R192, R199). -/
def agcReadRssi (C : Config) (v : Vfo) (s : State) : State :=
  { regRead C C.rssiReg (.agc v) s with agcRaw := (regRead C C.rssiReg (.agc v) s).rxShift }

/-- Steps 2 (after the read) to 7 on the state (43 R199). -/
def agcComputeOn (C : Config) (v : Vfo) (s : State) : State :=
  s.setTrk v (agcCompute C (rssiField C s.agcRaw) (s.trk v))

/-- Steps 1 to 8 of a receiving tick (43 R190). -/
def agcRun (C : Config) (v : Vfo) (freq : Word32) (s : State) : State :=
  agcStep8 C v (agcComputeOn C v (agcReadRssi C v (agcStep1 v freq s)))

/-- AGC_TICK(v, rx, freq) (43 R190): SKIPPED when the VFO is not receiving (D16). -/
def agcTickOn (C : Config) (v : Vfo) (rx : Bool) (freq : Word32) (s : State) : State :=
  if rx then
    (agcRun C v freq (s.latch (agcTickWord v rx freq))).respond .ok
      (agcRun C v freq (s.latch (agcTickWord v rx freq))).agcRaw
  else (s.latch (agcTickWord v rx freq)).respond .skipped 0#16

/-- AGC_TICK. -/
def execAgcTick (v : Vfo) (rx : Bool) (freq : Word32) (s : State) : Host.Outcome State Fault Refusal :=
  .next (agcTickOn Config.board v rx freq s)

end Sys2Proof.Machine
end

