-- ==== Sys2Proof/Machine/Register.lean ====
section
/-! DEFINITION. The register-layer pseudo-operations of spec/42_register_ops.md sections 1 to 7. Each runs its expansion
into bus commands as one contiguous step (R170); an operand out of range is refused before the first command (R171). -/

namespace Sys2Proof.Machine

/-- A host-side refusal: no command is issued, so the block sees nothing (42 R171, 60 R231). -/
def hostRefuse (s : State) : State := s.give .refused

/-- SETFREQ: the low half first (42 R140). -/
def setFreqOn (C : Config) (f : Word32) (s : State) : State :=
  (busWriteOn C C.freqHiReg (bitsOf f 16 16) (busWriteOn C C.freqLoReg (bitsOf f 0 16) s)).give .done

/-- SETSQ: the four writes of SQ_PACK in list order (42 R143). -/
def setSqOn (C : Config) (t : Squelch) (s : State) : State :=
  match C.sqPack t with
  | some p => (writeAllOn C [p.first, p.second, p.third, p.fourth] s).give .done
  | none => hostRefuse s

/-- SETAGC: a read-modify-write (42 R146). The word read is the response's data (41 R131). -/
def setAgcOn (C : Config) (en mode : Nat) (s : State) : State :=
  if en > 1 ∨ mode > 7 then hostRefuse s
  else (busWriteOn C C.agcCfgReg (agcCfgWord C (busReadOn C C.agcCfgReg s).rsp.rdata en mode)
    (busReadOn C C.agcCfgReg s)).give .done

/-- SETTONE (42 R149). -/
def setToneOn (C : Config) (hz : Nat) (s : State) : State :=
  if toneWord hz > 0xFFFF then hostRefuse s
  else (busWriteOn C C.toneReg (BitVec.ofNat 16 (toneWord hz)) s).give .done

/-- SETCTCSS, in either reading of the erratum (42 R152). -/
def setCtcssOn (C : Config) (cw : Nat) (s : State) : State :=
  if ctcssDiv cw > 0xFFFF then hostRefuse s
  else match C.ctcssErratumMode with
    | .configWord =>
      (busWriteOn C C.ctcssReg (C.ctcssWord (BitVec.ofNat 16 (ctcssDiv cw)))
        (busWriteOn C C.ctcssCfgReg (if cw = erratumControlWord then C.ctcssCfgErratum else C.ctcssCfgNormal) s)).give .done
    | .replaceDivisor =>
      (busWriteOn C C.ctcssReg
        (if cw = erratumControlWord then C.ctcssErratumWord else C.ctcssWord (BitVec.ofNat 16 (ctcssDiv cw))) s).give .done

/-- SETCDCSS: the low half first (42 R156). -/
def setCdcssOn (C : Config) (code : Nat) (s : State) : State :=
  if code ≥ 2 ^ 23 then hostRefuse s
  else (busWriteOn C C.cdcssReg (cdcssHigh C (BitVec.ofNat 23 code))
    (busWriteOn C C.cdcssReg (cdcssLow C (BitVec.ofNat 23 code)) s)).give .done

/-- GETRSSI (42 R159). -/
def getRssiOn (C : Config) (s : State) : State :=
  (busReadOn C C.rssiReg s).give (.rssi (rssiField C (busReadOn C C.rssiReg s).rsp.rdata))

/-- SETGAIN (42 R160). -/
def setGainOn (C : Config) (reg : Word16) (s : State) : State :=
  (busWriteOn C C.gainReg reg s).give .done

/-- GETGAINDB (42 R161). -/
def getGainDbOn (C : Config) (s : State) : State :=
  (busReadOn C C.gainReg s).give (.gainDb (gainDecode C (busReadOn C C.gainReg s).rsp.rdata))

/-- SETFREQ. -/
def execSetFreq (f : Word32) (s : State) : Host.Outcome State Fault Refusal :=
  .next (setFreqOn Config.board f s)

/-- SETSQ. -/
def execSetSq (t : Squelch) (s : State) : Host.Outcome State Fault Refusal :=
  .next (setSqOn Config.board t s)

/-- SETAGC. -/
def execSetAgc (en mode : Nat) (s : State) : Host.Outcome State Fault Refusal :=
  .next (setAgcOn Config.board en mode s)

/-- SETTONE. -/
def execSetTone (hz : Nat) (s : State) : Host.Outcome State Fault Refusal :=
  .next (setToneOn Config.board hz s)

/-- SETCTCSS. -/
def execSetCtcss (cw : Nat) (s : State) : Host.Outcome State Fault Refusal :=
  .next (setCtcssOn Config.board cw s)

/-- SETCDCSS. -/
def execSetCdcss (code : Nat) (s : State) : Host.Outcome State Fault Refusal :=
  .next (setCdcssOn Config.board code s)

/-- GETRSSI. -/
def execGetRssi (s : State) : Host.Outcome State Fault Refusal :=
  .next (getRssiOn Config.board s)

/-- SETGAIN. -/
def execSetGain (reg : Word16) (s : State) : Host.Outcome State Fault Refusal :=
  .next (setGainOn Config.board reg s)

/-- GETGAINDB. -/
def execGetGainDb (s : State) : Host.Outcome State Fault Refusal :=
  .next (getGainDbOn Config.board s)

end Sys2Proof.Machine
end

