-- ==== Sys2Proof/Machine/Scan.lean ====
section
/-! DEFINITION. The hardware auto-scan pseudo-operations of spec/42_register_ops.md section 8 (R163, R166, R168). -/

namespace Sys2Proof.Machine

/-- FSCAN_START (42 R163). -/
def fscanStartOn (C : Config) (s : State) : State := (writeAllOn C C.fscanEnSeq s).give .done

/-- One frequency poll: the state after its reads, and its result (42 R163). -/
def fscanPollRun (C : Config) (s : State) : State × FscanResult :=
  let s1 := busReadOn C C.fscanR1 s
  if C.fscanDone s1.rsp.rdata then
    let s2 := busReadOn C C.fscanR2 s1
    (s2, if C.fscanHit s1.rsp.rdata s2.rsp.rdata then .found (C.fscanValue s1.rsp.rdata s2.rsp.rdata) else .notFound)
  else (s1, .busy)

/-- FSCAN_POLL (42 R163). -/
def fscanPollOn (C : Config) (s : State) : State :=
  (fscanPollRun C s).1.give (.fscan (fscanPollRun C s).2)

/-- At most `n` frequency polls; `TIMEOUT` when each is busy, with no further command (42 R163, R168). -/
def fscanWaitRun (C : Config) : Nat → State → State × FscanResult
  | 0, s => (s, .timeout)
  | n + 1, s =>
    if (fscanPollRun C s).2 = .busy then fscanWaitRun C n (fscanPollRun C s).1 else fscanPollRun C s

/-- FSCAN_WAIT (42 R163). -/
def fscanWaitOn (C : Config) (s : State) : State :=
  (fscanWaitRun C C.pollLimit s).1.give (.fscan (fscanWaitRun C C.pollLimit s).2)

/-- CSCAN_START (42 R166). -/
def cscanStartOn (C : Config) (s : State) : State := (writeAllOn C C.cscanEnSeq s).give .done

/-- One code poll: the CDCSS register first (42 R166). -/
def cscanPollRun (C : Config) (s : State) : State × CscanResult :=
  let s1 := busReadOn C C.cscanR1 s
  if C.cdcssHit s1.rsp.rdata then
    let s2 := busReadOn C C.cscanR2 s1
    (s2, .foundCdcss (C.cdcssValue s1.rsp.rdata s2.rsp.rdata))
  else
    let s3 := busReadOn C C.cscanR3 s1
    (s3, if C.ctcssHit s3.rsp.rdata then .foundCtcss (C.ctcssValue s3.rsp.rdata) else .notFound)

/-- CSCAN_POLL (42 R166). -/
def cscanPollOn (C : Config) (s : State) : State :=
  (cscanPollRun C s).1.give (.cscan (cscanPollRun C s).2)

/-- At most `n` code polls; `TIMEOUT` when each says `NOT_FOUND` (42 R166, R168). -/
def cscanWaitRun (C : Config) : Nat → State → State × CscanResult
  | 0, s => (s, .timeout)
  | n + 1, s =>
    if (cscanPollRun C s).2 = .notFound then cscanWaitRun C n (cscanPollRun C s).1 else cscanPollRun C s

/-- CSCAN_WAIT (42 R166). -/
def cscanWaitOn (C : Config) (s : State) : State :=
  (cscanWaitRun C C.pollLimit s).1.give (.cscan (cscanWaitRun C C.pollLimit s).2)

/-- FSCAN_START. -/
def execFscanStart (s : State) : Host.Outcome State Fault Refusal :=
  .next (fscanStartOn Config.board s)

/-- FSCAN_POLL. -/
def execFscanPoll (s : State) : Host.Outcome State Fault Refusal :=
  .next (fscanPollOn Config.board s)

/-- FSCAN_WAIT. -/
def execFscanWait (s : State) : Host.Outcome State Fault Refusal :=
  .next (fscanWaitOn Config.board s)

/-- CSCAN_START. -/
def execCscanStart (s : State) : Host.Outcome State Fault Refusal :=
  .next (cscanStartOn Config.board s)

/-- CSCAN_POLL. -/
def execCscanPoll (s : State) : Host.Outcome State Fault Refusal :=
  .next (cscanPollOn Config.board s)

/-- CSCAN_WAIT. -/
def execCscanWait (s : State) : Host.Outcome State Fault Refusal :=
  .next (cscanWaitOn Config.board s)

end Sys2Proof.Machine
end

