-- ==== Sys2Proof/Machine/Dispatch.lean ====
section
/-! DEFINITION. One arm per constructor of Instr: the meaning it calls. -/

namespace Sys2Proof.Machine

def exec (i : Instr) (s : State) : Host.Outcome State Fault Refusal :=
  match i with
  | .busWrite addr data => Sys2Proof.Machine.execBusWrite addr data s
  | .busRead addr => Sys2Proof.Machine.execBusRead addr s
  | .agcTick v rx freq => Sys2Proof.Machine.execAgcTick v rx freq s
  | .frameWrite addr data => Sys2Proof.Machine.execFrameWrite addr data s
  | .frameRead addr data => Sys2Proof.Machine.execFrameRead addr data s
  | .setFreq f => Sys2Proof.Machine.execSetFreq f s
  | .setSq t => Sys2Proof.Machine.execSetSq t s
  | .setAgc en mode => Sys2Proof.Machine.execSetAgc en mode s
  | .setTone hz => Sys2Proof.Machine.execSetTone hz s
  | .setCtcss cw => Sys2Proof.Machine.execSetCtcss cw s
  | .setCdcss code => Sys2Proof.Machine.execSetCdcss code s
  | .getRssi => Sys2Proof.Machine.execGetRssi s
  | .setGain reg => Sys2Proof.Machine.execSetGain reg s
  | .getGainDb => Sys2Proof.Machine.execGetGainDb s
  | .fscanStart => Sys2Proof.Machine.execFscanStart s
  | .fscanPoll => Sys2Proof.Machine.execFscanPoll s
  | .fscanWait => Sys2Proof.Machine.execFscanWait s
  | .cscanStart => Sys2Proof.Machine.execCscanStart s
  | .cscanPoll => Sys2Proof.Machine.execCscanPoll s
  | .cscanWait => Sys2Proof.Machine.execCscanWait s

end Sys2Proof.Machine
end

