-- ==== Sys2Proof/Machine/Cycle.lean ====
section
/-! DEFINITION. The block one clock cycle at a time: the refinement of the transaction level by spec/41_bus.md R120 to
R130, spec/43_agc.md R199, spec/60_exceptions.md R230, R232 and spec/70_reset_and_hazards.md R260 to R263. -/

namespace Sys2Proof.Machine

/-- The inputs of one cycle: reset, the command port, and the sampled data line (10 R20 to R22). -/
structure PortIn where
  rst      : Bool
  cmdValid : Bool
  cmdWord  : CmdWord
  sdaIn    : Bool
  deriving DecidableEq, Repr

/-- Enter a phase: its pins, and the settle count of its first cycle (41 R121, R122). -/
def enterSlot (C : Config) (ph : Phase) (b : Nat) (s : State) : State :=
  { s with
    pos    := { s.pos with phase := ph, bit := b }
    settle := C.settleCycles - 1
    pins   := phasePins C s.txFrame ph b s.pins.sdaOut }

/-- Start a transaction: load the frame and enter `PRE` (41 R123, R124). -/
def startFrame (C : Config) (f : Frame) (s : State) : State :=
  enterSlot C .pre 0 { s with txFrame := f }

/-- Start a decoded command in its acceptance cycle; an AGC_TICK does its step 1 in it (41 R129, 43 R190, R199). Only
the three command forms are ever decoded from a command word (30 R85). -/
def startCommand (C : Config) (i : Instr) (s : State) : State :=
  match i with
  | .busWrite addr data => startFrame C (writeFrame addr data) { s with pos := { s.pos with op := .write } }
  | .busRead addr => startFrame C (readFrame addr 0#16) { s with pos := { s.pos with op := .read } }
  | .agcTick v rx freq =>
    if rx then
      startFrame C (readFrame C.rssiReg 0#16)
        { agcStep1 v freq s with pos := { s.pos with op := .agcTick, agcStep := .rdRssi } }
    else s.respond .skipped 0#16
  | .frameWrite _ _ | .frameRead _ _ | .setFreq _ | .setSq _ | .setAgc _ _ | .setTone _ | .setCtcss _ | .setCdcss _
  | .getRssi | .setGain _ | .getGainDb | .fscanStart | .fscanPoll | .fscanWait | .cscanStart | .cscanPoll
  | .cscanWait => s

/-- The cycle in which a command word is accepted (41 R129); an illegal word is refused (60 R230). -/
def acceptWord (C : Config) (c : CmdWord) (s : State) : State :=
  match decodeWord c with
  | .ok i => startCommand C i (s.latch c)
  | .error r => (s.latch c).refuse r

/-- The VFO of the AGC_TICK in progress (30 R84). -/
def State.tickVfo (s : State) : Vfo := vfoOfBit (s.cmdLatch.getLsbD 61)

/-- The last cycle of a transaction's `POST`: its event is appended, and the command goes on or completes (41 R129,
43 R199). -/
def endTransaction (C : Config) (s : State) : State :=
  let s' := s.record (if frameIsRead s.txFrame then .rd else .wr) (frameAddr s.txFrame)
    (if frameIsRead s.txFrame then s.rxShift else frameData s.txFrame) s.origin
  match s.pos.op with
  | .none => s'.endFrame
  | .write => s'.respond .ok 0#16
  | .read => s'.respond .ok s.rxShift
  | .agcTick =>
    match s.pos.agcStep with
    | .rdRssi => { s' with agcRaw := s.rxShift, pos := { s.pos with agcStep := .compute } }
    | .wrGain => (agcApply C s.tickVfo s').respond .ok s.agcRaw
    | .compute | .done => s'.endFrame

/-- The COMPUTE cycle of an AGC_TICK (43 R199): steps 2 to 7, then the gain write unless step 8 issues none. -/
def computeCycle (C : Config) (s : State) : State :=
  let s' := agcComputeOn C s.tickVfo s
  if agcWrites C (s'.trk s.tickVfo) then
    startFrame C (writeFrame C.gainReg (gainEntry C (s'.trk s.tickVfo).idx).reg)
      { s' with pos := { s'.pos with agcStep := .wrGain } }
  else s'.respond .ok s'.agcRaw

/-- One cycle of a phase other than IDLE: count down, and in the last cycle sample and go to the next phase (41 R121,
R123 to R125). -/
def phaseCycle (C : Config) (line : Bool) (s : State) : State :=
  if s.settle ≠ 0 then { s with settle := s.settle - 1 }
  else
    let s' := { s with rxShift := sampleInto s.pos.phase s.pos.bit line s.rxShift }
    match nextSlot (frameIsRead s.txFrame) s.pos.phase s.pos.bit with
    | some (ph, b) => enterSlot C ph b s'
    | none => endTransaction C s'

/-- One clock cycle. `rst` goes before everything (60 R236); a command is accepted only in IDLE (10 R22), and one
offered at any other time changes nothing (60 R232). -/
def cycle (C : Config) (inp : PortIn) (s : State) : State :=
  if inp.rst then resetBlock C s
  else if s.idle then
    if inp.cmdValid then acceptWord C inp.cmdWord s else s.idleCycle
  else if s.pos.agcStep = .compute then computeCycle C s
  else phaseCycle C inp.sdaIn s

/-- What a slave that keeps to 41 R126 and answers as the oracle does has on the data line. -/
def slaveBit (C : Config) (s : State) : Bool :=
  slaveLine (C.oracle (frameAddr s.txFrame) s.history) s.pos.phase s.pos.bit

/-- One cycle with no reset and no command, against that slave. -/
def clock (C : Config) (s : State) : State := cycle C ⟨false, false, 0#64, slaveBit C s⟩ s

/-- `n` such cycles. -/
def clockN (C : Config) : Nat → State → State
  | 0, s => s
  | n + 1, s => clockN C n (clock C s)

/-- One cycle in which the word `c` is offered. -/
def offer (C : Config) (c : CmdWord) (s : State) : State := cycle C ⟨false, true, c, slaveBit C s⟩ s

end Sys2Proof.Machine
end

