-- ==== Sys2Proof/Machine/Fetch.lean ====
section
/-! DEFINITION. Taking the host's next move from the command port (spec/10_state.md R22, spec/60_exceptions.md R232,
R236). The block fetches no instruction of its own (20 R73): what it runs next is what the host offers. -/

namespace Sys2Proof.Machine

/-- What the next step is: an accepted instruction to run from a state, or a state reached with none. -/
inductive Fetched where
  | run (i : Instr) (s : State)
  | now (s : State)
  deriving DecidableEq, Repr

/-- Accept a word in IDLE: it is decoded and run, or refused (41 R129, 60 R230). -/
def fetchWord (c : CmdWord) (s : State) : Fetched :=
  match decodeWord c with
  | .ok i => .run i s
  | .error r => .now ((s.latch c).refuse r)

/-- The host's next move on an idle block. With nothing offered a cycle of IDLE passes. -/
def fetchIdle (C : Config) (s : State) : Fetched :=
  match s.port with
  | [] => .now s.idleCycle
  | .rst :: rest => .now (resetBlock C { s with port := rest })
  | .word c :: rest => fetchWord c { s with port := rest }
  | .line i :: rest => .run i { s with port := rest }
  | .frame f :: rest => .run (decodeFrame f) { s with port := rest }

/-- A busy block: reset goes before everything (60 R236); any other move is held while the sequencer goes on by one
cycle (60 R232). -/
def fetchBusy (C : Config) (s : State) : State :=
  match s.port with
  | .rst :: rest => resetBlock C { s with port := rest }
  | [] | .word _ :: _ | .line _ :: _ | .frame _ :: _ => clock C s

/-- The next step. -/
def fetch (C : Config) (s : State) : Fetched :=
  if s.idle then fetchIdle C s else .now (fetchBusy C s)

/-- The host move that offers the encoded bits of an instruction. -/
def requestOf : Encoded → Request
  | .word c => .word c
  | .frame f => .frame f

/-- The state with a move put before the host's other moves, the block idle so that the move is not held. -/
def placeRequest (r : Request) (s : State) : State :=
  { s with pos := (if s.idle then s.pos else Pos.start), port := r :: s.port }

end Sys2Proof.Machine
end

