-- ==== Sys2Proof/Machine/Step.lean ====
section
/-! DEFINITION. One step of the machine at the transaction level (spec/00_scope.md R5). -/

namespace Sys2Proof.Machine

/-- One step: take the host's next move and run it to completion, or go on without one. -/
def step (s : State) : Host.Outcome State Fault Refusal :=
  match fetch Config.board s with
  | .run i s' => exec i s'
  | .now s' => .next s'

/-- The state in which the next step runs the instruction with the bits `w` of a table row. -/
def State.withFetchWord (s : State) (nbits w : Nat) : State :=
  match encodedOfTable nbits w with
  | some e => placeRequest (requestOf e) s
  | none => s

end Sys2Proof.Machine
end

