-- ==== Sys2Proof/Machine/Duties.lean ====
section
/-! DEFINITION. The host duties of spec/70_reset_and_hazards.md R279 as conditions that a claim can assume, and the runs
they are about. The machine itself takes any host (log entry 26). Two duties need no condition: contiguity (R274), because
an expansion is one move, and the settle configuration (R271), because Config carries it. -/

namespace Sys2Proof.Machine

/-! ## At the port, cycle by cycle: duties 1 and 7 -/

/-- The block over a list of input cycles. -/
def runCycles (C : Config) : List PortIn → State → State
  | [], s => s
  | inp :: rest, s => runCycles C rest (cycle C inp s)

/-- A transaction is in flight: the sequencer is between a `PRE` and its `POST` (20 R69; log entry 32). -/
def State.inFlight (s : State) : Bool := s.pos.phase != .idle && s.pos.agcStep != .compute

/-- Duty 1 (60 R232): a command offered and not accepted in a cycle is offered again, unchanged, in the next. -/
def holdsOffers (C : Config) : List PortIn → State → Bool
  | [], _ => true
  | [_], _ => true
  | a :: b :: rest, s =>
    (!a.cmdValid || s.cmdReady a.rst || (b.cmdValid && b.cmdWord == a.cmdWord)) && holdsOffers C (b :: rest) (cycle C a s)

/-- Duty 7 (70 R262): no `rst` while a transaction is in flight. -/
def sparesTransactions (C : Config) : List PortIn → State → Bool
  | [], _ => true
  | inp :: rest, s => !(inp.rst && s.inFlight) && sparesTransactions C rest (cycle C inp s)

/-- The duties of the host at the port. -/
structure KeepsPortDuties (C : Config) (inps : List PortIn) (s : State) : Prop where
  offers : holdsOffers C inps s = true
  resets : sparesTransactions C inps s = true

/-! ## In a 10 ms tick, move by move: duties 2, 4 and 5 -/

/-- What holds of a VFO in one tick: whether it is live, whether it is receiving, and the frequency it is tuned to (70
R275, R276). -/
structure VfoContext where
  live      : Bool
  receiving : Bool
  tuned     : Word32
  deriving DecidableEq, Repr

/-- What holds of the two VFOs in one tick. -/
structure TickContext where
  vfo0 : VfoContext
  vfo1 : VfoContext
  deriving DecidableEq, Repr

/-- The context of VFO `v`. -/
def TickContext.vfo (ctx : TickContext) : Vfo → VfoContext
  | .vfo0 => ctx.vfo0
  | .vfo1 => ctx.vfo1

/-- The instruction that a move of the host runs, if it runs one. -/
def Request.instr : Request → Option Instr
  | .rst => none
  | .word c => decodeEncoded (.word c)
  | .line i => some i
  | .frame f => some (decodeFrame f)

/-- The operands of an AGC_TICK. -/
structure TickOperands where
  vfo  : Vfo
  rx   : Bool
  freq : Word32
  deriving DecidableEq, Repr

/-- The AGC_TICK that a move is, if it is one. -/
def Request.tick (r : Request) : Option TickOperands :=
  match r.instr with
  | some (.agcTick v rx f) => some ⟨v, rx, f⟩
  | _ => none

/-- The registers that an instruction of the host can write. -/
def hostWrites (C : Config) : Instr → List Addr
  | .busWrite addr _ => [addr]
  | .frameWrite addr _ => [addr]
  | .setFreq _ => [C.freqLoReg, C.freqHiReg]
  | .setSq _ => C.sqRegs.toList
  | .setAgc _ _ => [C.agcCfgReg]
  | .setTone _ => [C.toneReg]
  | .setCtcss _ => [C.ctcssCfgReg, C.ctcssReg]
  | .setCdcss _ => [C.cdcssReg]
  | .setGain _ => [C.gainReg]
  | .fscanStart => C.fscanEnSeq.map RegWord.addr
  | .cscanStart => C.cscanEnSeq.map RegWord.addr
  | .busRead _ | .agcTick _ _ _ | .frameRead _ _ | .getRssi | .getGainDb | .fscanPoll | .fscanWait | .cscanPoll
  | .cscanWait => []

/-- The tuning registers (42 R140). -/
def tuningRegs (C : Config) : List Addr := [C.freqLoReg, C.freqHiReg]

/-- The registers a retune programs: tuning, squelch and gain (42 R141; which these are is log
entry 32). -/
def retuneRegs (C : Config) : List Addr := tuningRegs C ++ [C.gainReg, C.agcCfgReg] ++ C.sqRegs.toList

/-- Whether a move can write one of the registers `regs`. -/
def Request.writesAny (C : Config) (regs : List Addr) (r : Request) : Bool :=
  match r.instr with
  | some i => (hostWrites C i).any fun a => regs.contains a
  | none => false

/-- A move of the host in a tick, with the VFOs whose retune it is part of. No port shows these: they are what the host
means by the move (70 R273, log entry 32). -/
structure HostMove where
  request : Request
  retunes : List Vfo
  deriving DecidableEq, Repr

/-- Whether a move can be meant so: a write of a tuning register is part of some VFO's retune (42 R140), and what is part
of a retune writes a register that a retune programs (42 R141). -/
def HostMove.meant (C : Config) (m : HostMove) : Bool :=
  if m.retunes = [] then !m.request.writesAny C (tuningRegs C) else m.request.writesAny C (retuneRegs C)

/-- Duty 2 (70 R273): in one tick no part of a retune of a VFO follows the AGC_TICK of that VFO. -/
def scansFirst : List HostMove → Bool
  | [] => true
  | m :: rest => (m.request.tick.all fun t => rest.all fun q => !q.retunes.contains t.vfo) && scansFirst rest

/-- Duty 4 (70 R275): exactly one AGC_TICK for each live VFO. -/
def ticksOnce (ctx : TickContext) (moves : List Request) : Bool :=
  [Vfo.vfo0, .vfo1].all fun v => !(ctx.vfo v).live || ((moves.filterMap Request.tick).filter fun t => t.vfo == v).length == 1

/-- Duties 4 and 5 (70 R275, R276): each AGC_TICK carries whether its VFO is receiving and what it is tuned to. -/
def ticksTruly (ctx : TickContext) (moves : List Request) : Bool :=
  (moves.filterMap Request.tick).all fun t => t.rx == (ctx.vfo t.vfo).receiving && t.freq == (ctx.vfo t.vfo).tuned

/-- Cycles from the acceptance of a write to its response (70 R281). -/
def writeCycles (C : Config) : Nat := 76 * C.settleCycles + 1

/-- Cycles from the acceptance of a read to its response (70 R281). -/
def readCycles (C : Config) : Nat := 61 * C.settleCycles + 1

/-- At most how many cycles an instruction takes at the port, from its first acceptance to its last response; a command
can be accepted in the cycle of the response before it (70 R281). -/
def instrCycles (C : Config) : Instr → Nat
  | .busWrite _ _ | .frameWrite _ _ | .setTone _ | .setGain _ => writeCycles C
  | .busRead _ | .frameRead _ _ | .getRssi | .getGainDb => readCycles C
  | .agcTick _ rx _ => if rx then 137 * C.settleCycles + 2 else 1
  | .setFreq _ | .setCtcss _ | .setCdcss _ => 2 * writeCycles C
  | .setSq _ => 4 * writeCycles C
  | .setAgc _ _ => readCycles C + writeCycles C
  | .fscanStart => C.fscanEnSeq.length * writeCycles C
  | .cscanStart => C.cscanEnSeq.length * writeCycles C
  | .fscanPoll | .cscanPoll => 2 * readCycles C
  | .fscanWait => (C.pollLimit + 1) * readCycles C
  | .cscanWait => 2 * C.pollLimit * readCycles C

/-- At most how many cycles a move takes; a refused word and a reset take one. -/
def Request.cycles (C : Config) (r : Request) : Nat :=
  match r.instr with
  | some i => instrCycles C i
  | none => 1

/-- The duties of the host in one 10 ms tick; its moves fit in the period (70 R275). -/
structure KeepsTickDuties (C : Config) (ctx : TickContext) (moves : List HostMove) : Prop where
  meant  : moves.all (HostMove.meant C) = true
  scans  : scansFirst moves = true
  once   : ticksOnce ctx (moves.map HostMove.request) = true
  truly  : ticksTruly ctx (moves.map HostMove.request) = true
  period : (((moves.map fun m => m.request.cycles C).sum : Nat) : Rat) ≤ tickPeriod * C.fClk

/-- `n` steps of the machine. -/
def stepN : Nat → State → State
  | 0, s => s
  | n + 1, s =>
    match step s with
    | .next t => stepN n t
    | .fault _ | .refused _ => s

/-- The machine over one tick of the host. -/
def runHostTick (moves : List Request) (s : State) : State := stepN moves.length { s with port := s.port ++ moves }

/-- The machine over a run of ticks. -/
def runHostTicks : List (TickContext × List HostMove) → State → State
  | [], s => s
  | t :: rest, s => runHostTicks rest (runHostTick (t.2.map HostMove.request) s)

/-- A run in which the host keeps its duties in every tick. -/
def KeepsDuties (C : Config) (run : List (TickContext × List HostMove)) : Prop := ∀ t ∈ run, KeepsTickDuties C t.1 t.2

end Sys2Proof.Machine
end

