-- ==== Sys2Proof/Machine/Offline.lean ====
section
/-! DEFINITION. Two constructions the spec gives that are no behaviour of the block: the simulator oracle for runners
(spec/20_memory.md R76, untrusted) and the offline gain-table generator (spec/43_agc.md R183). -/

namespace Sys2Proof.Machine

/-- `M[a]`: the last word written to `a`, or what the register file held at the start (20 R76). -/
def lastWritten (init : Addr → Word16) (a : Addr) (h : List Event) : Word16 :=
  h.foldl (fun m e => if e.kind = .wr ∧ e.addr = a then e.value else m) (init a)

/-- The register-file oracle: scripted at the `VOLATILE` addresses, `M[a]` elsewhere (20 R76). -/
def simOracle (init : Addr → Word16) (isVolatile : Addr → Bool) (script : Addr → List Event → Word16)
    (a : Addr) (h : List Event) : Word16 :=
  if isVolatile a then script a h else lastWritten init a h

/-- `VOLATILE` holds at least the RSSI register and every scan result register (20 R76, 93 section 3). -/
def simVolatileOk (C : Config) (isVolatile : Addr → Bool) : Bool :=
  [C.rssiReg, C.fscanR1, C.fscanR2, C.cscanR1, C.cscanR2, C.cscanR3].all isVolatile

/-- A gain word from its four stage-field values (42 R162). -/
def stageWord (p : StageFields) (short lna mix pga : Nat) : Word16 :=
  (BitVec.ofNat 16 short <<< p.short) ||| (BitVec.ofNat 16 lna <<< p.lna)
    ||| (BitVec.ofNat 16 mix <<< p.mix) ||| (BitVec.ofNat 16 pga <<< p.pga)

/-- Every stage-field combination with its gain (43 R183). -/
def stageCombinations (p : StageFields) (d : StageDb) : List GainEntry :=
  (List.range 4).flatMap fun a => (List.range 8).flatMap fun b => (List.range 4).flatMap fun c =>
    (List.range 8).map fun e => ⟨stageWord p a b c e, stageSum p d (stageWord p a b c e)⟩

/-- Insert into a list ascending in gain. Of two entries with one gain, `keepNew old new` says whether the new one
replaces the old: the rule is not in the source (93 U10). -/
def insertByGain (keepNew : GainEntry → GainEntry → Bool) (e : GainEntry) : List GainEntry → List GainEntry
  | [] => [e]
  | x :: rest =>
    if e.gain < x.gain then e :: x :: rest
    else if e.gain = x.gain then (if keepNew x e then e else x) :: rest
    else x :: insertByGain keepNew e rest

/-- `Gen`: the combinations deduplicated by gain and sorted ascending (43 R183). -/
def gainGen (p : StageFields) (d : StageDb) (keepNew : GainEntry → GainEntry → Bool) : List GainEntry :=
  (stageCombinations p d).foldl (fun l e => insertByGain keepNew e l) []

end Sys2Proof.Machine
end

