-- ==== Sys2Proof/Safety.lean ====
section
/-! DEFINITION. What counts as a legal state and a safe run, and what an instruction leaves unchanged, in the terms the
statements use. -/

namespace Sys2Proof.Machine

/-- The slave's state is defined: no transaction was cut off (spec/10_state.md R35, 70 R262). -/
def State.DeviceDefined (s : State) : Prop := s.devUndefined = false

/-- The ranges of a tracker's fields (10 R31, R32). -/
structure TrackerOk (C : Config) (t : Tracker) : Prop where
  idx      : t.idx < gainTableLen
  prevIdx  : ∀ i, t.prevIdx = some i → i < gainTableLen
  prevRssi : t.prevRssi < 2 ^ C.rssiWidth
  hold     : t.hold ≤ holdTicks

/-- Whether the frame of a command in progress is a read, from the command and the step inside it (41 R100, R110, 43 R199);
`none` where no command in progress stands so. -/
def commandReads : Op → AgcStep → Option Bool
  | .write, .done => some false
  | .read, .done => some true
  | .agcTick, .rdRssi => some true
  | .agcTick, .compute => some true
  | .agcTick, .wrGain => some false
  | .none, _ | .write, .rdRssi | .write, .compute | .write, .wrGain | .read, .rdRssi | .read, .compute | .read, .wrGain
  | .agcTick, .done => none

/-- A legal state. In IDLE the position is `(NONE, IDLE, 0, DONE)` with no cycle to count (10 R26, R37); in any other phase
it is a slot of the current frame's phase sequence, and the frame is of the direction that the command in progress has
(41 R123, R124, 43 R199); a COMPUTE cycle stands on POST (log entry 14); the settle count is within a phase (60 R246); the pins are those of the
phase (41 R122); the trackers are in range (10 R31, R32); `gainDiff` is in −7..86 (10 R34); and the history is numbered
by position (20 R68). -/
structure Inv (C : Config) (s : State) : Prop where
  idle     : s.pos.phase = .idle → s.pos = Pos.start ∧ s.settle = 0
  slot     : s.pos.phase ≠ .idle → (s.pos.phase, s.pos.bit) ∈ frameSeq s.txFrame
  command  : s.pos.phase ≠ .idle → commandReads s.pos.op s.pos.agcStep = some (frameIsRead s.txFrame)
  compute  : s.pos.agcStep = .compute → s.pos.phase = .post
  settle   : s.settle < C.settleCycles
  pins     : s.pins = phasePins C s.txFrame s.pos.phase s.pos.bit s.pins.sdaOut
  trk      : ∀ v, TrackerOk C (s.trk v)
  gainDiff : -7 ≤ s.gainDiff ∧ s.gainDiff ≤ 86
  history  : historyWf s.history = true

/-- What no bus command of the host touches: the trackers, the frequencies, the offset, the AGC's reading, the undefined
mark, and the host's other moves (41 R100, R104). -/
structure SameAgc (s t : State) : Prop where
  trk          : ∀ v, t.trk v = s.trk v
  lastFreq     : ∀ v, t.lastFreq v = s.lastFreq v
  gainDiff     : t.gainDiff = s.gainDiff
  agcRaw       : t.agcRaw = s.agcRaw
  devUndefined : t.devUndefined = s.devUndefined
  port         : t.port = s.port

/-- The pseudo-operations of the register layer (30 R90). -/
def isPseudo : Instr → Bool
  | .busWrite _ _ | .busRead _ | .agcTick _ _ _ | .frameWrite _ _ | .frameRead _ _ => false
  | .setFreq _ | .setSq _ | .setAgc _ _ | .setTone _ | .setCtcss _ | .setCdcss _ | .getRssi | .setGain _ | .getGainDb
  | .fscanStart | .fscanPoll | .fscanWait | .cscanStart | .cscanPoll | .cscanWait => true

/-- The pins of IDLE with `SDA` held at `b`, on the machine's own (active-low) chip select (41 R122). -/
def idlePins (b : Bool) : Pins := ⟨true, false, b, true⟩

/-- The bits of a word in wire order, the most significant first (00 R8, 20 R63). -/
def msbFirst {w : Nat} (v : BitVec w) : List Bool := (List.range w).map fun k => v.getLsbD (w - 1 - k)

/-- The events that a list of register writes by the host appends after `n` events. -/
def writeEvents : Nat → List RegWord → List Event
  | _, [] => []
  | n, r :: rest => ⟨n, .wr, r.addr, r.word, .host⟩ :: writeEvents (n + 1) rest

/-- From the first cycle of a transaction on, in the state `s` with the pins `before` it, the block stands for
`SETTLE_CYCLES` cycles in each phase of the sequence of its frame, in order: the settle count runs down to 0 and the pins
are those of the phase (41 R121 to R124, 70 R280). -/
def RunsThePhases (C : Config) (before : Pins) (s : State) : Prop :=
  ∀ (k j : Nat) (sl : Slot), (frameSeq s.txFrame)[k]? = some sl → j < C.settleCycles →
    let u := clockN C (k * C.settleCycles + j) s
    u.pos = ⟨s.pos.op, sl.1, sl.2, s.pos.agcStep⟩ ∧ u.settle = C.settleCycles - 1 - j ∧ u.txFrame = s.txFrame ∧
    (wave C s.txFrame before (frameSeq s.txFrame))[k]? = some u.pins

/-- A tracker over a run of receiving ticks with no frequency change, for the raw readings in order (43 R190). -/
def runTicks (C : Config) (raws : List Nat) (t : Tracker) : Tracker := raws.foldl (fun u x => agcCompute C x u) t

end Sys2Proof.Machine
end

