-- ==== Sys2Proof/Certificates/Slice0/Obligations.lean ====
section
/-! DEFINITION. The statements for the provers. Each docstring names the rule of spec/ that it formalises. A statement
about every `C : Config` holds for every value of the OPEN parameters and every oracle; one about `exec` or `step` is
about the machine's own configuration, `Config.board`, of which nothing is known but what every `Config` meets and the
three parameters the spec decides. -/

open Sys2Proof Sys2Proof.Machine

/-! ## Encodings -/

/-- 30 R81 to R86: an encoded instruction decodes to itself, with every operand at every value. -/
def Obligations.EncodedInstructionDecodesBack : Prop :=
  ∀ (i : Instr) (e : Encoded), encode i = some e → decodeEncoded e = some i

/-- 30 R83, R85: each command word and frame that decodes is the encoding of what it decodes to, so no bit is dropped. -/
def Obligations.DecodedBitsEncodeBack : Prop :=
  ∀ (e : Encoded) (i : Instr), decodeEncoded e = some i → encode i = some e

/-- spec/opcode_table.json: a word is a command exactly if it agrees with the row's `match` under the row's `mask`. -/
def Obligations.CommandWordsMatchTheTable : Prop :=
  ∀ c : CmdWord,
    ((∃ a d, decodeWord c = .ok (.busWrite a d)) ↔ c &&& 0xFF800000FFFFFFFF#64 = 0x4000000000000000#64) ∧
    ((∃ a, decodeWord c = .ok (.busRead a)) ↔ c &&& 0xFF80FFFFFFFFFFFF#64 = 0x8000000000000000#64) ∧
    ((∃ v rx f, decodeWord c = .ok (.agcTick v rx f)) ↔ c &&& 0xCFFFFFFF00000000#64 = 0xC000000000000000#64)

/-- 30 R85, R87, 60 R236.2: which words are illegal, and the reason reported first. -/
def Obligations.IllegalWordsAndTheirReasons : Prop :=
  ∀ c : CmdWord,
    (decodeWord c = .error .reservedOp ↔ c.toNat / 2 ^ 62 = 0) ∧
    (decodeWord c = .error .reservedBits ↔ c.toNat / 2 ^ 62 ≠ 0 ∧ c.toNat / 2 ^ 55 % 32 ≠ 0) ∧
    (decodeWord c = .error .unusedFieldNonZero ↔ c.toNat / 2 ^ 62 ≠ 0 ∧ c.toNat / 2 ^ 55 % 32 = 0 ∧
      ((c.toNat / 2 ^ 62 = 1 ∧ (c.toNat / 2 ^ 60 % 4 ≠ 0 ∨ c.toNat % 2 ^ 32 ≠ 0)) ∨
       (c.toNat / 2 ^ 62 = 2 ∧ (c.toNat / 2 ^ 60 % 4 ≠ 0 ∨ c.toNat % 2 ^ 48 ≠ 0)) ∨
       (c.toNat / 2 ^ 62 = 3 ∧ c.toNat / 2 ^ 32 % 2 ^ 23 ≠ 0)))

/-- 95 section 2.1, 30 R81, R82: words of the spec decode to the instructions they stand for. -/
def Obligations.SpecWordsDecode : Prop :=
  decodeTableWord 64 0x401303BE00000000 = some (.busWrite 0x13#7 0x03BE#16) ∧
  decodeTableWord 64 0x8067000000000000 = some (.busRead 0x67#7) ∧
  decodeTableWord 64 0xD00000000ABA9500 = some (.agcTick .vfo0 true 0x0ABA9500#32) ∧
  decodeTableWord 64 0xE000000000000000 = some (.agcTick .vfo1 false 0#32) ∧
  decodeTableWord 24 0x1303BE = some (.frameWrite 0x13#7 0x03BE#16) ∧
  decodeTableWord 24 0xE7008E = some (.frameRead 0x67#7 0x008E#16) ∧
  decodeTableWord 64 0x4080000000000000 = none

/-- 30 R89: the words of the assembler lines WR, RD and TICK. -/
def Obligations.AssemblerLineWords : Prop :=
  ∀ (a : Addr) (d : Word16) (v : Vfo) (rx : Bool) (f : Word32),
    (busWriteWord a d).toNat = 0x4000000000000000 + a.toNat * 2 ^ 48 + d.toNat * 2 ^ 32 ∧
    (busReadWord a).toNat = 0x8000000000000000 + a.toNat * 2 ^ 48 ∧
    (agcTickWord v rx f).toNat = 0xC000000000000000 + v.bit.toNat * 2 ^ 61 + rx.toNat * 2 ^ 60 + f.toNat

/-! ## The wire -/

/-- 30 R81, R82, 20 R63, 41 R112, R126.2: what the slave captures of a write frame is the read flag 0, the address and
the data, and of a read frame the read flag 1 and the address, each most significant bit first. -/
def Obligations.SlaveCapturesTheFrameMsbFirst : Prop :=
  ∀ (C : Config) (a : Addr) (d : Word16) (out oe : Bool),
    capturedBits C ⟨csLevel C false, false, out, oe⟩
        (wave C (writeFrame a d) ⟨csLevel C false, false, out, oe⟩ (frameSeq (writeFrame a d)))
      = false :: msbFirst a ++ msbFirst d ∧
    capturedBits C ⟨csLevel C false, false, out, oe⟩
        (wave C (readFrame a d) ⟨csLevel C false, false, out, oe⟩ (frameSeq (readFrame a d)))
      = true :: msbFirst a

/-- 41 R123, R124, 70 R281's phase counts: a write has 76 phases and a read 61, from PRE to POST, each the one that
follows the one before. The bit numbers outside the bit phases are the model's choice, log entry 14. -/
def Obligations.PhaseSequencesAreTheNextSlotChains : Prop :=
  writeSeq.length = 76 ∧ readSeq.length = 61 ∧
  writeSeq.head? = some (.pre, 0) ∧ readSeq.head? = some (.pre, 0) ∧
  (∀ k < 76, ∀ x y, writeSeq[k]? = some x → writeSeq[k + 1]? = y → nextSlot false x.1 x.2 = y) ∧
  (∀ k < 61, ∀ x y, readSeq[k]? = some x → readSeq[k + 1]? = y → nextSlot true x.1 x.2 = y)

/-- 41 R127: over every frame's phases, `CS` deasserted in the first and the last phase and before, asserted in all
between; 24 rising edges of `SCK`, all while selected; `SCK` low on both sides whenever `CS` is not asserted on one of
them; `SDA` and its driver unchanged from the phase before a high phase to the phase after it. The clause about the
slave's driver is left out (log entry 15). -/
def Obligations.WireInvariantsOfATransaction : Prop :=
  ∀ (C : Config) (f : Frame) (out : Bool),
    let p : Pins := ⟨csLevel C false, false, out, true⟩
    let w := wave C f p (frameSeq f)
    p.selected C = false ∧
    (∀ (k : Nat) (x : Pins), w[k]? = some x → (x.selected C = true ↔ 0 < k ∧ k + 1 < (frameSeq f).length)) ∧
    w.length = (frameSeq f).length ∧
    (risingEdges p w).length = 24 ∧ (∀ q ∈ risingEdges p w, q.selected C = true) ∧
    (∀ (k : Nat) (x y : Pins), (p :: w)[k]? = some x → w[k]? = some y →
      ((x.selected C = false ∨ y.selected C = false) → x.sck = false ∧ y.sck = false) ∧
      ((x.sck = true ∨ y.sck = true) → x.sdaOut = y.sdaOut ∧ x.sdaOe = y.sdaOe))

/-! ## Bus commands -/

/-- 41 R100, R101, R104: a bus write completes with OK and no data; its frame is on the wire and its event in the
history; trackers, frequencies, offset and the applied-gain readouts are unchanged, whatever the address. The pins, the
latch and the position are 41 R122 and R129; that the field `refusal` is cleared is the model's choice, log entry 4. -/
def Obligations.BusWriteCompletes : Prop :=
  ∀ (a : Addr) (d : Word16) (s : State), ∃ t, exec (.busWrite a d) s = .next t ∧
    t.history = s.history ++ [⟨s.history.length, .wr, a, d, .host⟩] ∧
    t.txFrame = writeFrame a d ∧ t.cmdLatch = busWriteWord a d ∧
    t.rsp = ⟨true, .ok, 0#16⟩ ∧ t.refusal = none ∧ t.pos = Pos.start ∧ t.settle = 0 ∧
    t.pins = idlePins (d.getLsbD 0) ∧
    t.rxShift = s.rxShift ∧ t.hostResult = s.hostResult ∧ SameAgc s t

/-- 41 R110, 20 R66: a bus read completes with OK and the slave's answer, whatever it is, unsigned and whole (the
answer's form is log entry 7). The pins, the latch and the position are 41 R122 and R129; that the field `refusal` is
cleared is the model's choice, log entry 4. -/
def Obligations.BusReadCompletes : Prop :=
  ∀ (a : Addr) (s : State), ∃ t, exec (.busRead a) s = .next t ∧
    t.rxShift = Config.board.oracle a s.history ∧
    t.rsp = ⟨true, .ok, Config.board.oracle a s.history⟩ ∧
    t.history = s.history ++ [⟨s.history.length, .rd, a, Config.board.oracle a s.history, .host⟩] ∧
    t.txFrame = readFrame a 0#16 ∧ t.cmdLatch = busReadWord a ∧
    t.refusal = none ∧ t.pos = Pos.start ∧ t.settle = 0 ∧ t.pins = idlePins (a.getLsbD 0) ∧
    t.hostResult = s.hostResult ∧ SameAgc s t

/-- 30 R81, R82 and log entry 3 (the model's choice of what a bare frame is): a frame runs as one transaction with its
event and no response; a read frame's data are what the slave drives. That `rsp_status` and `rsp_rdata` are held is the
model's choice, log entry 21. -/
def Obligations.WireFramesComplete : Prop :=
  ∀ (a : Addr) (d : Word16) (s : State),
    (∃ t, exec (.frameWrite a d) s = .next t ∧ t.txFrame = writeFrame a d ∧ t.rxShift = s.rxShift ∧
      t.history = s.history ++ [⟨s.history.length, .wr, a, d, s.origin⟩] ∧ t.pins = idlePins (d.getLsbD 0) ∧
      t.rsp = { s.rsp with valid := false } ∧ t.pos = Pos.start ∧ t.settle = 0 ∧ t.cmdLatch = s.cmdLatch ∧
      t.hostResult = s.hostResult ∧ t.refusal = s.refusal ∧ SameAgc s t) ∧
    (∃ t, exec (.frameRead a d) s = .next t ∧ t.txFrame = readFrame a 0#16 ∧ t.rxShift = d ∧
      t.history = s.history ++ [⟨s.history.length, .rd, a, d, s.origin⟩] ∧ t.pins = idlePins (a.getLsbD 0) ∧
      t.rsp = { s.rsp with valid := false } ∧ t.pos = Pos.start ∧ t.settle = 0 ∧ t.cmdLatch = s.cmdLatch ∧
      t.hostResult = s.hostResult ∧ t.refusal = s.refusal ∧ SameAgc s t)

/-- 20 R76: on the simulator's register file a read after a write of the same register gives the word written, and a
write leaves every other register alone. -/
def Obligations.SimulatorReadsWhatWasWritten : Prop :=
  ∀ (C : Config) (init : Addr → Word16) (vol : Addr → Bool) (script : Addr → List Event → Word16),
    C.oracle = simOracle init vol script → ∀ (a b : Addr) (d : Word16) (s : State),
      (vol a = false → (busReadOn C a (busWriteOn C a d s)).rsp.rdata = d) ∧
      (vol b = false → b ≠ a →
        (busReadOn C b (busWriteOn C a d s)).rsp.rdata = (busReadOn C b s).rsp.rdata)

/-! ## The clock level -/

/-- 70 R281, 41 R129: a bus write accepted in cycle `t` gives its response in cycle `t + 76·S + 1`, no earlier, and the
state the transaction level gives (log entry 1). Between, the block runs the phases of the write sequence, `S` cycles each
(41 R121, R123, 70 R280; the bit numbers outside the bit phases are the model's choice, log entry 14). -/
def Obligations.BusWriteLatencyAndRefinement : Prop :=
  ∀ (C : Config) (a : Addr) (d : Word16) (s : State), s.pos = Pos.start → s.settle = 0 →
    clockN C (76 * C.settleCycles) (offer C (busWriteWord a d) s) = busWriteOn C a d s ∧
    (∀ n < 76 * C.settleCycles, (clockN C n (offer C (busWriteWord a d) s)).rsp.valid = false) ∧
    (offer C (busWriteWord a d) s).txFrame = writeFrame a d ∧
    (offer C (busWriteWord a d) s).pos = ⟨.write, .pre, 0, .done⟩ ∧
    RunsThePhases C s.pins (offer C (busWriteWord a d) s)

/-- 70 R281, 41 R129, R125, R126: a bus read gives its response in cycle `t + 61·S + 1`, and the sampled word is the
slave's answer, as at the transaction level, against the slave of log entry 15. Between, the block runs the phases of the
read sequence, `S` cycles each (41 R121, R124, 70 R280; the bit numbers outside the bit phases are the model's choice, log
entry 14). -/
def Obligations.BusReadLatencyAndRefinement : Prop :=
  ∀ (C : Config) (a : Addr) (s : State), s.pos = Pos.start → s.settle = 0 →
    clockN C (61 * C.settleCycles) (offer C (busReadWord a) s) = busReadOn C a s ∧
    (∀ n < 61 * C.settleCycles, (clockN C n (offer C (busReadWord a) s)).rsp.valid = false) ∧
    (offer C (busReadWord a) s).txFrame = readFrame a 0#16 ∧
    (offer C (busReadWord a) s).pos = ⟨.read, .pre, 0, .done⟩ ∧
    RunsThePhases C s.pins (offer C (busReadWord a) s)

/-- 70 R281, 43 R199: a receiving tick gives its response in cycle `t + 137·S + 2` with a gain write and `t + 61·S + 2`
without, and the state the eight steps give, against the slave of log entry 15. Between, the block runs the phases of the
RSSI read, one COMPUTE cycle, and the phases of the gain write if there is one (70 R280, R281; log entry 14). -/
def Obligations.AgcTickLatencyAndRefinement : Prop :=
  ∀ (C : Config) (v : Vfo) (f : Word32) (s : State), s.pos = Pos.start → s.settle = 0 →
    let t := agcTickOn C v true f s
    let cycles := if t.history.length = s.history.length + 2 then 137 * C.settleCycles + 1 else 61 * C.settleCycles + 1
    clockN C cycles (offer C (agcTickWord v true f) s) = t ∧
    (∀ n < cycles, (clockN C n (offer C (agcTickWord v true f) s)).rsp.valid = false) ∧
    (offer C (agcTickWord v true f) s).txFrame = readFrame C.rssiReg 0#16 ∧
    (offer C (agcTickWord v true f) s).pos = ⟨.agcTick, .pre, 0, .rdRssi⟩ ∧
    RunsThePhases C s.pins (offer C (agcTickWord v true f) s) ∧
    let computing := clockN C (61 * C.settleCycles) (offer C (agcTickWord v true f) s)
    computing.pos = ⟨.agcTick, .post, 23, .compute⟩ ∧
    (t.history.length = s.history.length + 2 →
      (clock C computing).txFrame = t.txFrame ∧ (clock C computing).pos = ⟨.agcTick, .pre, 0, .wrGain⟩ ∧
      RunsThePhases C computing.pins (clock C computing))

/-- 41 R125, 20 R63, 30 R82: whatever `sda_in` shows, the last cycle of TA puts it into bit 15 of `rxShift` and the last
cycle of R_LOW(b), b = 8..22, into bit 22 − b, every other bit as before; no other cycle but one of reset changes
`rxShift`; and what it holds in the last cycle of a read's POST is the result. -/
def Obligations.ReadSamplesEachBitAtItsPhase : Prop :=
  ∀ (C : Config) (inp : PortIn) (s : State), inp.rst = false →
    let t := cycle C inp s
    let sampling := s.settle = 0 ∧ s.pos.agcStep ≠ .compute
    (sampling → s.pos.phase = .ta →
      ∀ i < 16, t.rxShift.getLsbD i = if i = 15 then inp.sdaIn else s.rxShift.getLsbD i) ∧
    (sampling → s.pos.phase = .rLow → 8 ≤ s.pos.bit → s.pos.bit ≤ 22 →
      ∀ i < 16, t.rxShift.getLsbD i = if i = 22 - s.pos.bit then inp.sdaIn else s.rxShift.getLsbD i) ∧
    (¬ sampling ∨ (s.pos.phase ≠ .ta ∧ ¬ (s.pos.phase = .rLow ∧ s.pos.bit ≤ 22)) → t.rxShift = s.rxShift) ∧
    (sampling → s.pos.phase = .post → s.pos.op = .read → t.rsp = ⟨true, .ok, s.rxShift⟩)

/-- 60 R232: a command offered while the block is busy or in reset changes nothing; it is accepted in the first cycle in
which the block is in IDLE, and its word is latched (41 R129; for illegal and skipped words the model's choice, log
entry 12). 10 R23: with none offered in IDLE, the response pulse ends and nothing else changes; that `rsp_status` and
`rsp_rdata` are held is the model's choice, log entry 21, and so is the step that passes such a cycle, log entry 2. -/
def Obligations.OfferedCommandIsHeldWhileBusy : Prop :=
  ∀ (C : Config) (inp : PortIn) (s : State),
    (s.idle = false ∨ inp.rst = true → ∀ (valid : Bool) (c : CmdWord),
      cycle C { inp with cmdValid := valid, cmdWord := c } s = cycle C inp s) ∧
    (s.cmdReady inp.rst = true → inp.cmdValid = true → (cycle C inp s).cmdLatch = inp.cmdWord) ∧
    (s.cmdReady inp.rst = true → inp.cmdValid = false → cycle C inp s = { s with rsp := { s.rsp with valid := false } }) ∧
    (s.idle = true → s.port = [] → step s = .next { s with rsp := { s.rsp with valid := false } })

/-- 41 R118, 60 R243, R244, 70 R281: from every legal state the block is back in IDLE within the cycles of the longest
command, a receiving tick. -/
def Obligations.EveryCommandEndsInIdle : Prop :=
  ∀ (C : Config) (s : State), Inv C s → ∃ n ≤ 137 * C.settleCycles + 1, (clockN C n s).idle = true

/-! ## Reset -/

/-- 10 R37, 70 R261: the power-on state, where the spec gives the value. -/
def Obligations.PowerOnValues : Prop :=
  let s := State.reset
  s.pos = ⟨.none, .idle, 0, .done⟩ ∧ s.pins = ⟨true, false, false, true⟩ ∧
  s.txFrame = 0#24 ∧ s.rxShift = 0#16 ∧ s.cmdLatch = 0#64 ∧ s.agcRaw = 0#16 ∧ s.settle = 0 ∧
  s.rsp = ⟨false, .ok, 0#16⟩ ∧
  (∀ v, s.trk v = ⟨0, none, 0, 0⟩ ∧ s.lastFreq v = none) ∧ s.gainDiff = 0 ∧ s.devUndefined = false

/-- 70 R260, R262, R263: what one cycle of `rst` leaves, from any state and whatever else is on the inputs; a second
cycle changes nothing more. That pins and response stand so from the cycle after the first of `rst` is the model's
choice, log entry 33. -/
def Obligations.ResetCycleFromAnyState : Prop :=
  ∀ (C : Config) (inp : PortIn) (s : State), inp.rst = true →
    let t := cycle C inp s
    t.pos = ⟨.none, .idle, 0, .done⟩ ∧ t.pins = ⟨C.csActiveLow, false, false, true⟩ ∧
    t.txFrame = 0#24 ∧ t.rxShift = 0#16 ∧ t.cmdLatch = 0#64 ∧ t.agcRaw = 0#16 ∧ t.settle = 0 ∧
    t.rsp = ⟨false, .ok, 0#16⟩ ∧ (∀ v, t.trk v = ⟨0, none, 0, 0⟩ ∧ t.lastFreq v = none) ∧ t.gainDiff = 0 ∧
    (t.devUndefined = true ↔ s.devUndefined = true ∨
      (s.pos.phase ≠ .idle ∧ s.pos.phase ≠ .pre ∧ s.pos.phase ≠ .post)) ∧
    s.cmdReady true = false ∧ t.cmdReady false = true ∧ cycle C inp t = t

/-- 10 R35, 70 R262: `devUndefined` is sticky, and a reset with `CS` asserted, and nothing else, sets it. -/
def Obligations.UndefinedMarkIsSetOnlyByResetAndSticky : Prop :=
  ∀ (C : Config) (inp : PortIn) (s : State),
    (s.devUndefined = true → (cycle C inp s).devUndefined = true) ∧
    ((cycle C inp s).devUndefined = true → s.devUndefined = true ∨ (inp.rst = true ∧ csAsserted s.pos.phase = true)) ∧
    (inp.rst = true → csAsserted s.pos.phase = true → (cycle C inp s).devUndefined = true)

/-! ## Steps of the machine -/

/-- 10 R22, 41 R129 and log entry 2 (the model's choice of how the host's moves stand in State): a step of an idle block
runs the instruction the host's next move stands for, with that move taken; an illegal word is refused. That this word is
latched is the model's choice, log entry 12, and so is the field `refusal` that keeps its reason, log entry 4. -/
def Obligations.StepRunsTheDecodedInstruction : Prop :=
  ∀ (s : State) (rest : List Request) (i : Instr), s.idle = true →
    (∀ c, s.port = .word c :: rest → decodeWord c = .ok i → step s = exec i { s with port := rest }) ∧
    (s.port = .line i :: rest → step s = exec i { s with port := rest }) ∧
    (∀ f, s.port = .frame f :: rest → decodeFrame f = i → step s = exec i { s with port := rest }) ∧
    (∀ c r, s.port = .word c :: rest → decodeWord c = .error r →
      step s = .next ((({ s with port := rest } : State).latch c).refuse r))

/-- The same, for the instruction placed as the host's next move (log entry 2, the model's choice): it runs from any
state, which is put into IDLE. -/
def Obligations.StepRunsThePlacedInstruction : Prop :=
  ∀ (s : State) (nbits w : Nat) (i : Instr), decodeTableWord nbits w = some i →
    step (s.withFetchWord nbits w) = exec i { s with pos := (if s.idle then s.pos else Pos.start) }

/-- 60 R230: an illegal word accepted on the command port gets the response REFUSED with data 0 in the next cycle, and
changes nothing else but the latch; the model keeps the reason's name. That the word is latched is the model's choice,
log entry 12, and so is the field `refusal`, log entry 4. First the rule's three corner cases. -/
def Obligations.IllegalWordIsRefusedPrecisely : Prop :=
  (decodeWord 0#64 = .error .reservedOp ∧ decodeWord 0x4080000000000000#64 = .error .reservedBits ∧
    decodeWord 0x4000000000000001#64 = .error .unusedFieldNonZero) ∧
  ∀ (C : Config) (inp : PortIn) (s : State) (r : IllegalReason),
    inp.cmdValid = true → s.cmdReady inp.rst = true → decodeWord inp.cmdWord = .error r →
    let t := cycle C inp s
    t.rsp = ⟨true, .refused, 0#16⟩ ∧ t.rsp.status.code = 1#2 ∧ t.refusal = some r ∧ t.pos = ⟨.none, .idle, 0, .done⟩ ∧
    t.settle = 0 ∧ t.cmdLatch = inp.cmdWord ∧
    (∀ v, t.trk v = s.trk v ∧ t.lastFreq v = s.lastFreq v) ∧ t.gainDiff = s.gainDiff ∧
    t.devUndefined = s.devUndefined ∧ t.history = s.history ∧ t.pins = s.pins ∧ t.txFrame = s.txFrame ∧
    t.rxShift = s.rxShift ∧ t.agcRaw = s.agcRaw ∧ t.hostResult = s.hostResult ∧ t.port = s.port

/-- 60 R232, R236.1, and log entries 1 and 2 (the model's choice of what a step is): on a busy block a
step is one cycle of the sequencer, the host's move held; a reset is not held. -/
def Obligations.BusyStepHoldsTheCommand : Prop :=
  ∀ s : State, s.idle = false →
    (s.port.head? ≠ some .rst → step s = .next (clock Config.board s) ∧ (clock Config.board s).port = s.port) ∧
    (∀ rest, s.port = .rst :: rest → step s = .next (resetBlock Config.board { s with port := rest }))

/-- 00 R11, 60 R243: no step ends the machine. -/
def Obligations.EveryStepGivesANextState : Prop := ∀ s : State, ∃ t, step s = .next t

/-- Every step keeps the invariant (10 R26, R31, R32, R34, R37, 41 R122, 43 R199, 20 R68): between commands the position is
`(NONE, IDLE, 0, DONE)`, and in one the frame has the direction of the command and its step. That a COMPUTE cycle stands on POST, and the
bit numbers outside the bit phases, are the model's choice, log entry 14. -/
def Obligations.StepKeepsTheStateLegal : Prop :=
  ∀ s t : State, Inv Config.board s → step s = .next t → Inv Config.board t

/-- The power-on state is legal. -/
def Obligations.PowerOnStateIsLegal : Prop := Inv Config.board State.reset

/-- At the clock level too, on any inputs (log entry 14 as above). -/
def Obligations.CycleKeepsTheStateLegal : Prop :=
  ∀ (C : Config) (inp : PortIn) (s : State), Inv C s → Inv C (cycle C inp s)

/-- 10 R31, R35, 43 R190: of all instructions only a receiving AGC_TICK changes a tracker or a frequency, and only that
of its own VFO; only it changes `gainDiff`; none changes `devUndefined`. -/
def Obligations.OnlyTheOwnTickMutatesATracker : Prop :=
  ∀ (i : Instr) (s t : State), exec i s = .next t →
    (∀ v, t.trk v ≠ s.trk v ∨ t.lastFreq v ≠ s.lastFreq v → ∃ f, i = .agcTick v true f) ∧
    (t.gainDiff ≠ s.gainDiff → ∃ v f, i = .agcTick v true f) ∧ t.devUndefined = s.devUndefined

/-- 20 R62, R68, R70, 70 R262: the history only grows, whatever the step; at the clock level a cycle appends at most one
event, and a cycle of reset none (log entries 10 and 13). -/
def Obligations.HistoryOnlyGrows : Prop :=
  (∀ s t : State, step s = .next t → ∃ l, t.history = s.history ++ l) ∧
  ∀ (C : Config) (inp : PortIn) (s : State), ∃ l, (cycle C inp s).history = s.history ++ l ∧ l.length ≤ 1 ∧
    (inp.rst = true → l = [])

/-! ## The gain controller -/

/-- 43 R190, 60 R233: a tick of a VFO that is not receiving is SKIPPED: no traffic and no change but the response, and
that in the cycle after the acceptance (70 R281). That the word is latched is the model's choice, log entry 12, and so is that the field `refusal` is cleared, log entry 4. -/
def Obligations.SkippedTickChangesNothing : Prop :=
  ∀ (v : Vfo) (f : Word32) (s : State), s.pos = Pos.start → s.settle = 0 →
    let t : State := { s with
      cmdLatch := agcTickWord v false f
      rsp      := ⟨true, .skipped, 0#16⟩
      refusal  := none }
    exec (.agcTick v false f) s = .next t ∧
    ∀ C : Config, agcTickOn C v false f s = t ∧ offer C (agcTickWord v false f) s = t

/-- 43 R190 to R192, R198, R207, R208: a receiving tick reads the RSSI register once and writes the gain register once;
what it leaves in its tracker comes from the tracker after step 1 and the word read; the other VFO is untouched. The
pins, the latch and the position are 41 R122 and R129; that the field `refusal` is cleared is the model's choice, log
entry 4. -/
def Obligations.ReceivingTickCompletes : Prop :=
  ∀ (v u : Vfo) (f : Word32) (s : State), u ≠ v →
    let B := Config.board
    let w := B.oracle B.rssiReg s.history
    let start : Tracker := if s.lastFreq v = some f then s.trk v else ⟨0, (s.trk v).prevIdx, 0, 0⟩
    let after : Tracker := agcCompute B (w.toNat >>> B.rssiLsb % 2 ^ B.rssiWidth) start
    ∃ t, exec (.agcTick v true f) s = .next t ∧
      t.trk v = { after with prevIdx := some after.idx } ∧ t.lastFreq v = some f ∧
      t.gainDiff = -7 - (gainEntry B after.idx).gain ∧ t.agcRaw = w ∧ t.rsp = ⟨true, .ok, w⟩ ∧
      t.history = s.history ++ [⟨s.history.length, .rd, B.rssiReg, w, .agc v⟩,
        ⟨s.history.length + 1, .wr, B.gainReg, (gainEntry B after.idx).reg, .agc v⟩] ∧
      t.pos = Pos.start ∧ t.settle = 0 ∧ t.cmdLatch = agcTickWord v true f ∧ t.rxShift = w ∧
      t.txFrame = writeFrame B.gainReg (gainEntry B after.idx).reg ∧
      t.pins = idlePins ((gainEntry B after.idx).reg.getLsbD 0) ∧
      t.trk u = s.trk u ∧ t.lastFreq u = s.lastFreq u ∧ t.devUndefined = s.devUndefined ∧ t.refusal = none ∧
      t.hostResult = s.hostResult ∧ t.port = s.port

/-- 43 R207: after a frequency change the tick's outcome does not depend on the tracker's index, hold or reading. -/
def Obligations.FrequencyChangeForgetsTheTracker : Prop :=
  ∀ (v : Vfo) (f : Word32) (s1 s2 t1 t2 : State),
    s1.lastFreq v ≠ some f → s2.lastFreq v ≠ some f → s1.history = s2.history →
    exec (.agcTick v true f) s1 = .next t1 → exec (.agcTick v true f) s2 = .next t2 →
    t1.trk v = t2.trk v ∧ t1.gainDiff = t2.gainDiff ∧ t1.history = t2.history ∧ t1.rsp = t2.rsp

/-- 10 R24, 43 R201: the applied readouts are the entry that `prevIdx` names, and 0 while it names none, as after reset;
after a receiving tick they are the index and register word last written, and the offset is 0 at index 0 and −7 minus the
entry's gain above it. -/
def Obligations.ReadoutsShowTheAppliedGain : Prop :=
  (∀ (C : Config) (s : State) (v : Vfo),
    ((s.trk v).prevIdx = none →
      s.appliedValidOut v = false ∧ s.appliedIdxOut v = 0 ∧ s.appliedRegOut C v = 0#16) ∧
    (∀ i, (s.trk v).prevIdx = some i →
      s.appliedValidOut v = true ∧ s.appliedIdxOut v = i ∧ s.appliedRegOut C v = (gainEntry C i).reg)) ∧
  (∀ v, State.reset.appliedValidOut v = false ∧ State.reset.gainDiffOut = 0) ∧
  ∀ (v : Vfo) (f : Word32) (s t : State), exec (.agcTick v true f) s = .next t →
    t.appliedValidOut v = true ∧ t.appliedIdxOut v = (t.trk v).idx ∧
    t.appliedRegOut Config.board v = (gainEntry Config.board (t.trk v).idx).reg ∧
    (t.history.getLast?).map Event.value = some (t.appliedRegOut Config.board v) ∧
    t.gainDiffOut = (if (t.trk v).idx = 0 then 0 else -7 - (gainEntry Config.board (t.trk v).idx).gain)

/-- 43 R192, R194, R202: the smoothed reading, and where `diff` crosses its bounds. -/
def Obligations.DiffBoundaries : Prop :=
  (∀ rssi : Nat, (agcDiff rssi > 0 ↔ rssi ≥ 144) ∧ (agcDiff rssi ≥ 10 ↔ rssi ≥ 162) ∧
    (agcDiff rssi ≥ -6 ↔ rssi ≥ 129) ∧
    (142 ≤ rssi → agcDiff rssi = ((rssi : Int) - 142) / 2) ∧
    (rssi ≤ 142 → agcDiff rssi = -((142 - (rssi : Int)) / 2))) ∧
  ∀ (t : Tracker) (new : Nat), t.prevRssi ≤ 65535 → new ≤ 65535 →
    agcSmooth t new ≤ 65535 ∧ -71 ≤ agcDiff (agcSmooth t new) ∧ agcDiff (agcSmooth t new) ≤ 32696 ∧
    (t.prevRssi = 0 → agcSmooth t new = new) ∧ (0 < t.prevRssi → agcSmooth t new = (t.prevRssi + new) / 2)

/-- 43 R195 (reading D23): the coarse walk stops at the largest index at or below the start whose gain is at most the
desired gain, or at 1. An index above 41, which no run reaches, reads entry 0 (log entry 19). -/
def Obligations.CoarseWalkFindsTheLargestEntry : Prop :=
  ∀ (C : Config) (desired : Int) (i : Nat), 1 ≤ i →
    let j := coarseWalk C desired i
    1 ≤ j ∧ j ≤ i ∧ (j = 1 ∨ (gainEntry C j).gain ≤ desired) ∧
    ∀ k, j < k → k ≤ i → desired < (gainEntry C k).gain

/-- 43 R195, R202: what attenuation does to a ladder index: by one in the fine branch, at least by one in the coarse
branch, never below 1, and from 0 to 1; the coarse branch ends at the largest index at or below the start whose gain is at
most the start's less `d` plus 8, or at 1; this desired gain stays in the range the spec gives. -/
def Obligations.AttenuationMovesDownTheLadder : Prop :=
  ∀ (C : Config) (d : Int) (t : Tracker), t.idx < gainTableLen → 0 < d →
    (t.idx ≤ 1 → (agcStep5 C d t).idx = 1) ∧
    (1 < t.idx → 1 ≤ (agcStep5 C d t).idx ∧ (agcStep5 C d t).idx < t.idx) ∧
    (d < 10 → 1 ≤ t.idx → (agcStep5 C d t).idx = max 1 (t.idx - 1)) ∧
    (10 ≤ d → 1 < (agcStep5 C d t).idx →
      (gainEntry C (agcStep5 C d t).idx).gain ≤ (gainEntry C t.idx).gain - d + 8) ∧
    (10 ≤ d → ∀ k, (agcStep5 C d t).idx < k → k ≤ t.idx →
      (gainEntry C t.idx).gain - d + 8 < (gainEntry C k).gain) ∧
    (10 ≤ d → d ≤ 32696 →
      -32781 ≤ (gainEntry C t.idx).gain - d + 8 ∧ (gainEntry C t.idx).gain - d + 8 ≤ -2)

/-- 43 R193, R196, R197, R204: the hold and the index after a tick's steps. -/
def Obligations.HoldAndRelaxationOfATick : Prop :=
  ∀ (C : Config) (new : Nat) (t : Tracker),
    let d := agcDiff (agcSmooth t new)
    let u := agcCompute C new t
    u.prevRssi = new ∧ u.prevIdx = t.prevIdx ∧
    u.hold = (if -6 ≤ d then 30 else t.hold - 1) ∧
    (-6 ≤ d → d ≤ 0 → u.idx = t.idx) ∧
    (0 < d → u.idx = (agcStep5 C d t).idx) ∧
    (d < -6 → u.idx = if t.hold ≤ 1 then min (t.idx + 1) 41 else t.idx)

/-- 43 R180, R203: index 0 persists exactly while neither attenuation nor relaxation runs, is never produced from
another index, and is what is written meanwhile. -/
def Obligations.IndexZeroPersistence : Prop :=
  ∀ (C : Config) (new : Nat) (t : Tracker),
    let d := agcDiff (agcSmooth t new)
    (t.idx = 0 → (agcCompute C new t).idx = if 0 < d ∨ (d < -6 ∧ t.hold ≤ 1) then 1 else 0) ∧
    (1 ≤ t.idx → 1 ≤ (agcCompute C new t).idx) ∧ (gainEntry C 0).reg = 0x03BE#16

/-- 43 R205: after a tick that left the hold at 30, the index does not increase in any of the next 29 ticks; an increase
in the 30th needs thirty readings below the band. -/
def Obligations.HoldDelaysRelaxationThirtyTicks : Prop :=
  ∀ (C : Config) (raws : List Nat) (t : Tracker), t.hold = 30 → 1 ≤ t.idx → t.idx < gainTableLen →
    (raws.length < 29 → ∀ x, (runTicks C (raws ++ [x]) t).idx ≤ (runTicks C raws t).idx) ∧
    (raws.length = 29 → ∀ x, (runTicks C raws t).idx < (runTicks C (raws ++ [x]) t).idx →
      (runTicks C (raws ++ [x]) t).hold = 0 ∧
      ∀ k < 30, agcDiff (agcSmooth (runTicks C ((raws ++ [x]).take k) t) ((raws ++ [x]).getD k 0)) < -6)

/-- 43 R206, C3: convergence under a constant reading `x`: from the second tick on the smoothed reading is `x`, and in
the first too unless the stored one is positive and different; then the index falls to 1, stays, or rises to 41. -/
def Obligations.ConstantReadingConverges : Prop :=
  ∀ (C : Config) (x : Nat) (t : Tracker),
    agcSmooth (agcCompute C x t) x = x ∧
    (t.idx < gainTableLen → t.hold ≤ 30 → (t.prevRssi = 0 ∨ t.prevRssi = x) →
    agcSmooth t x = x ∧
    (0 < agcDiff x →
      (1 < t.idx → (agcCompute C x t).idx < t.idx) ∧ (t.idx ≤ 1 → (agcCompute C x t).idx = 1) ∧
      ∀ n, 41 ≤ n → (runTicks C (List.replicate n x) t).idx = 1) ∧
    (-6 ≤ agcDiff x → agcDiff x ≤ 0 → ∀ n, (runTicks C (List.replicate n x) t).idx = t.idx) ∧
    (agcDiff x < -6 → ∀ n,
      (runTicks C (List.replicate n x) t).hold = t.hold - n ∧
      (runTicks C (List.replicate n x) t).idx
        = min (t.idx + (if t.hold = 0 then n else n + 1 - t.hold)) 41))

/-- 10 R30, R34, 43 R181: on the ladder more index is more gain, so the register word applied at a higher index has the
higher gain, and every entry's gain is in −93..0. -/
def Obligations.LadderIsStrictlyAscending : Prop :=
  ∀ (C : Config) (i j : Nat),
    (1 ≤ i → i < j → j < gainTableLen → (gainEntry C i).gain < (gainEntry C j).gain) ∧
    (i < gainTableLen → -93 ≤ (gainEntry C i).gain ∧ (gainEntry C i).gain ≤ 0)

/-! ## Register-layer operations

Each runs in one step, and `hostResult`, what the host gets, is the model's own field: log entry 5, the model's choice. -/

/-- 42 R140: the two writes of a retune, low half first. -/
def Obligations.SetFreqCompletes : Prop :=
  ∀ (f : Word32) (s : State), ∃ t, exec (.setFreq f) s = .next t ∧
    t.history = s.history ++
      [⟨s.history.length, .wr, Config.board.freqLoReg, BitVec.ofNat 16 (f.toNat % 65536), .host⟩,
       ⟨s.history.length + 1, .wr, Config.board.freqHiReg, BitVec.ofNat 16 (f.toNat / 65536), .host⟩] ∧
    t.rsp = ⟨true, .ok, 0#16⟩ ∧ t.rxShift = s.rxShift ∧ SameAgc s t

/-- 42 R143, R171: the four writes of SQ_PACK in list order, or a refusal with no command outside its domain.
(`hostResult`: log entry 5.) -/
def Obligations.SetSquelchCompletes : Prop :=
  ∀ (q : Squelch) (s : State), ∃ t, exec (.setSq q) s = .next t ∧
    match Config.board.sqPack q with
    | some p => t.history = s.history ++ writeEvents s.history.length [p.first, p.second, p.third, p.fourth] ∧
        t.rsp = ⟨true, .ok, 0#16⟩ ∧ t.rxShift = s.rxShift ∧ t.hostResult = .done ∧ SameAgc s t
    | none => t = { s with hostResult := .refused }

/-- 42 R146: the read-modify-write of SETAGC; in the word written the two fields are the operands and every other bit is
as read. (`hostResult`: log entry 5.) -/
def Obligations.SetAgcReplacesTwoFields : Prop :=
  ∀ (en mode : Nat) (s : State), en ≤ 1 → mode ≤ 7 →
    let B := Config.board
    let w := B.oracle B.agcCfgReg s.history
    ∃ (t : State) (w' : Word16), exec (.setAgc en mode) s = .next t ∧
      t.history = s.history ++ [⟨s.history.length, .rd, B.agcCfgReg, w, .host⟩,
        ⟨s.history.length + 1, .wr, B.agcCfgReg, w', .host⟩] ∧
      (∀ k < 16, w'.getLsbD k =
        if k = B.agcEnBit then en.testBit 0
        else if B.agcModeLsb ≤ k ∧ k < B.agcModeLsb + 3 then mode.testBit (k - B.agcModeLsb)
        else w.getLsbD k) ∧
      t.rsp = ⟨true, .ok, 0#16⟩ ∧ t.hostResult = .done ∧ SameAgc s t

/-- 42 R149, R150: an accepted tone writes the word nearest to `hz · 1353245 / 2^17`, which is never an exact half.
(`hostResult`: log entry 5.) -/
def Obligations.SetToneWritesTheRoundedWord : Prop :=
  ∀ (hz : Nat) (s : State), hz ≤ 6347 → ∃ (t : State) (w : Word16), exec (.setTone hz) s = .next t ∧
    2 * (w.toNat * 2 ^ 17) < 2 * (hz * 1353245) + 2 ^ 17 ∧ 2 * (hz * 1353245) + 2 ^ 17 < 2 * ((w.toNat + 1) * 2 ^ 17) ∧
    t.history = s.history ++ [⟨s.history.length, .wr, Config.board.toneReg, w, .host⟩] ∧
    t.rsp = ⟨true, .ok, 0#16⟩ ∧ t.rxShift = s.rxShift ∧ t.hostResult = .done ∧ SameAgc s t

/-- 42 R152, R153, and log entry 24 (a 16-bit divisor field): the configuration write (the
erratum word for 2625 only) and then the rounded divisor's word.
(`hostResult`: log entry 5.) -/
def Obligations.SetCtcssWritesConfigThenDivisor : Prop :=
  ∀ (cw : Nat) (s : State), cw ≤ 31738 →
    let B := Config.board
    ∃ (t : State) (d : Word16), exec (.setCtcss cw) s = .next t ∧
      2 * (d.toNat * 100000) ≤ 2 * (cw * 206488) + 100000 ∧ 2 * (cw * 206488) + 100000 < 2 * ((d.toNat + 1) * 100000) ∧
      t.history = s.history ++
        [⟨s.history.length, .wr, B.ctcssCfgReg, if cw = 2625 then B.ctcssCfgErratum else B.ctcssCfgNormal, .host⟩,
         ⟨s.history.length + 1, .wr, B.ctcssReg, B.ctcssWord d, .host⟩] ∧
      t.rsp = ⟨true, .ok, 0#16⟩ ∧ t.rxShift = s.rxShift ∧ t.hostResult = .done ∧ SameAgc s t

/-- 42 R154: the divisor decodes back to the control word exactly. -/
def Obligations.CtcssRoundTripIsExact : Prop := ∀ cw : Nat, ctcssFreq (ctcssDiv cw) = cw

/-- 42 R156: the two halves of the code, the low one first with select 0, the high one with select 1.
(`hostResult`: log entry 5.) -/
def Obligations.SetCdcssWritesTheTwoHalves : Prop :=
  ∀ (code : Nat) (s : State), code < 2 ^ 23 →
    let B := Config.board
    ∃ (t : State) (lo hi : Word16), exec (.setCdcss code) s = .next t ∧
      lo.toNat = code % 4096 ∧ hi.toNat = code / 4096 + 2 ^ B.cdcssSelBit ∧
      t.history = s.history ++ [⟨s.history.length, .wr, B.cdcssReg, lo, .host⟩,
        ⟨s.history.length + 1, .wr, B.cdcssReg, hi, .host⟩] ∧
      t.rsp = ⟨true, .ok, 0#16⟩ ∧ t.rxShift = s.rxShift ∧ t.hostResult = .done ∧ SameAgc s t

/-- 42 R159 to R162: reading the RSSI, writing the gain register, and decoding the gain that is read: the sum of the
four stage tables, each at its field of the word; a read of a table entry's word decodes to its gain (the constraint on
the stage parameters, 93 section 3), and of 0x03BE to −7. (`hostResult`: log entry 5.) -/
def Obligations.RssiAndGainAccessComplete : Prop :=
  (∀ (C : Config) (s : State),
    (∀ i < gainTableLen, C.oracle C.gainReg s.history = (gainEntry C i).reg →
      (getGainDbOn C s).hostResult = .gainDb (gainEntry C i).gain) ∧
    (C.oracle C.gainReg s.history = 0x03BE#16 → (getGainDbOn C s).hostResult = .gainDb (-7))) ∧
  ∀ s : State,
    let B := Config.board
    (∃ t, exec .getRssi s = .next t ∧
      t.hostResult = .rssi ((B.oracle B.rssiReg s.history).toNat / 2 ^ B.rssiLsb % 2 ^ B.rssiWidth) ∧
      t.history = s.history ++ [⟨s.history.length, .rd, B.rssiReg, B.oracle B.rssiReg s.history, .host⟩] ∧
      t.rsp = ⟨true, .ok, B.oracle B.rssiReg s.history⟩ ∧ SameAgc s t) ∧
    (∀ reg, ∃ t, exec (.setGain reg) s = .next t ∧ t.hostResult = .done ∧
      t.history = s.history ++ [⟨s.history.length, .wr, B.gainReg, reg, .host⟩] ∧ t.rxShift = s.rxShift ∧
      t.rsp = ⟨true, .ok, 0#16⟩ ∧ SameAgc s t) ∧
    (let w := B.oracle B.gainReg s.history
     ∃ (t : State) (db : Int), exec .getGainDb s = .next t ∧ t.hostResult = .gainDb db ∧
      db = B.stageDb.short[w.toNat / 2 ^ B.stageFields.short % 4]'(Nat.mod_lt _ (by decide))
        + B.stageDb.lna[w.toNat / 2 ^ B.stageFields.lna % 8]'(Nat.mod_lt _ (by decide))
        + B.stageDb.mix[w.toNat / 2 ^ B.stageFields.mix % 4]'(Nat.mod_lt _ (by decide))
        + B.stageDb.pga[w.toNat / 2 ^ B.stageFields.pga % 8]'(Nat.mod_lt _ (by decide)) ∧
      t.history = s.history ++ [⟨s.history.length, .rd, B.gainReg, w, .host⟩] ∧
      t.rsp = ⟨true, .ok, w⟩ ∧ SameAgc s t)

/-- 42 R163, R166: the enable writes of the two scans, in list order. (`hostResult`: log entry 5.) -/
def Obligations.ScanStartsComplete : Prop :=
  ∀ s : State,
    let B := Config.board
    (∃ t, exec .fscanStart s = .next t ∧ t.history = s.history ++ writeEvents s.history.length B.fscanEnSeq ∧
      t.rxShift = s.rxShift ∧ t.hostResult = .done ∧ SameAgc s t) ∧
    (∃ t, exec .cscanStart s = .next t ∧ t.history = s.history ++ writeEvents s.history.length B.cscanEnSeq ∧
      t.rxShift = s.rxShift ∧ t.hostResult = .done ∧ SameAgc s t)

/-- 42 R163: one frequency poll: a busy one issues one read, a complete one exactly two. (`hostResult`: log entry 5.) -/
def Obligations.FscanPollCompletes : Prop :=
  ∀ s : State,
    let B := Config.board
    let r1 := B.oracle B.fscanR1 s.history
    let h1 := s.history ++ [⟨s.history.length, .rd, B.fscanR1, r1, .host⟩]
    let r2 := B.oracle B.fscanR2 h1
    ∃ t, exec .fscanPoll s = .next t ∧ SameAgc s t ∧
      (if B.fscanDone r1 then
        t.history = h1 ++ [⟨s.history.length + 1, .rd, B.fscanR2, r2, .host⟩] ∧
        t.hostResult = .fscan (if B.fscanHit r1 r2 then .found (B.fscanValue r1 r2) else .notFound)
      else t.history = h1 ∧ t.hostResult = .fscan .busy)

/-- 42 R166: one code poll always issues exactly two reads, the CDCSS register first. (`hostResult`: log entry 5.) -/
def Obligations.CscanPollCompletes : Prop :=
  ∀ s : State,
    let B := Config.board
    let r1 := B.oracle B.cscanR1 s.history
    let h1 := s.history ++ [⟨s.history.length, .rd, B.cscanR1, r1, .host⟩]
    let r2 := B.oracle B.cscanR2 h1
    let r3 := B.oracle B.cscanR3 h1
    ∃ t, exec .cscanPoll s = .next t ∧ SameAgc s t ∧
      (if B.cdcssHit r1 then
        t.history = h1 ++ [⟨s.history.length + 1, .rd, B.cscanR2, r2, .host⟩] ∧
        t.hostResult = .cscan (.foundCdcss (B.cdcssValue r1 r2))
      else
        t.history = h1 ++ [⟨s.history.length + 1, .rd, B.cscanR3, r3, .host⟩] ∧
        t.hostResult = .cscan (if B.ctcssHit r3 then .foundCtcss (B.ctcssValue r3) else .notFound))

/-- 42 R163, R166, R168: a wait is a run of `n` polls, at least one and at most POLL_LIMIT, each but the last BUSY
(NOT_FOUND for the code scan). It stops at the first poll that is not, with that poll's state and result, or after
POLL_LIMIT polls that all are, with that state and the result TIMEOUT. It reads only; a BUSY poll is one read, and a poll
of the code scan two. (`hostResult`: log entry 5.) -/
def Obligations.ScanWaitsAreBounded : Prop :=
  ∀ s : State,
    let B := Config.board
    (∃ (n : Nat) (p : Nat → State) (t : State) (l : List Event), exec .fscanWait s = .next t ∧ SameAgc s t ∧
      p 0 = s ∧ 1 ≤ n ∧ n ≤ B.pollLimit ∧ (∀ j < n, exec .fscanPoll (p j) = .next (p (j + 1))) ∧
      (∀ j, 1 ≤ j → j < n → (p j).hostResult = .fscan .busy) ∧
      (((p n).hostResult ≠ .fscan .busy ∧ t = p n ∧ l.length = n + 1) ∨
       (n = B.pollLimit ∧ (p n).hostResult = .fscan .busy ∧ t = { p n with hostResult := .fscan .timeout } ∧
        l.length = n)) ∧
      t.history = s.history ++ l ∧ ∀ e ∈ l, e.kind = .rd ∧ e.origin = .host) ∧
    (∃ (n : Nat) (p : Nat → State) (t : State) (l : List Event), exec .cscanWait s = .next t ∧ SameAgc s t ∧
      p 0 = s ∧ 1 ≤ n ∧ n ≤ B.pollLimit ∧ (∀ j < n, exec .cscanPoll (p j) = .next (p (j + 1))) ∧
      (∀ j, 1 ≤ j → j < n → (p j).hostResult = .cscan .notFound) ∧
      (((p n).hostResult ≠ .cscan .notFound ∧ t = p n) ∨
       (n = B.pollLimit ∧ (p n).hostResult = .cscan .notFound ∧ t = { p n with hostResult := .cscan .timeout })) ∧
      l.length = 2 * n ∧ t.history = s.history ++ l ∧ ∀ e ∈ l, e.kind = .rd ∧ e.origin = .host)

/-- 42 R171, 60 R231: an operand out of range is refused by the host with no command, the block's state untouched; an
operand in range is not refused. (`hostResult`: log entry 5.) -/
def Obligations.OutOfRangeOperandIsRefusedByTheHost : Prop :=
  ∀ (i : Instr) (s : State),
    (i.wf Config.board = false → exec i s = .next { s with hostResult := .refused }) ∧
    (i.wf Config.board = true → isPseudo i = true → ∃ t, exec i s = .next t ∧ t.hostResult ≠ .refused)

/-! ## Hosts that keep their duties -/

/-- 70 R262, R279.7: a host that gives no reset while a transaction is in flight leaves the slave defined, from any legal
state, whatever else it does. -/
def Obligations.SparedTransactionsLeaveTheSlaveDefined : Prop :=
  ∀ (C : Config) (inps : List PortIn) (s : State), Inv C s → s.DeviceDefined → sparesTransactions C inps s = true →
    (runCycles C inps s).DeviceDefined

/-- 60 R232, 70 R279.1: a host that holds its offers has, in every cycle up to the acceptance, the command it offered
first, and that command is the one accepted and latched (41 R129; for illegal and skipped words the model's choice, log
entry 12). -/
def Obligations.HeldOfferIsAcceptedUnchanged : Prop :=
  ∀ (C : Config) (inps : List PortIn) (s : State) (k : Nat) (first inp : PortIn),
    holdsOffers C inps s = true → inps.head? = some first → first.cmdValid = true → inps[k]? = some inp →
    (∀ j < k, ∀ i, inps[j]? = some i → (runCycles C (inps.take j) s).cmdReady i.rst = false) →
    inp.cmdValid = true ∧ inp.cmdWord = first.cmdWord ∧
    ((runCycles C (inps.take k) s).cmdReady inp.rst = true →
      (runCycles C (inps.take (k + 1)) s).cmdLatch = first.cmdWord)

/-- 70 R275, R276, R279, 43 R208: over one tick of a host that ticks each live VFO once and truly, and gives no reset,
every live receiving VFO has one read of the RSSI register and one write of the gain register, in this order, its stored
frequency is the one it is tuned to, and its applied readout is valid. The form of the host's moves is log entries 2 and 32,
the model's choice. -/
def Obligations.DutifulTickServesEachReceivingVfo : Prop :=
  ∀ (ctx : TickContext) (moves : List Request) (s : State) (v : Vfo),
    s.pos = Pos.start → s.port = [] → ticksOnce ctx moves = true → ticksTruly ctx moves = true → Request.rst ∉ moves →
    (ctx.vfo v).live = true → (ctx.vfo v).receiving = true →
    let t := runHostTick moves s
    t.pos = Pos.start ∧ t.port = [] ∧ t.lastFreq v = some (ctx.vfo v).tuned ∧ t.appliedValidOut v = true ∧
    ∃ l, t.history = s.history ++ l ∧
      (l.filter fun e => e.origin == .agc v).map (fun e => (e.kind, e.addr))
        = [(.rd, Config.board.rssiReg), (.wr, Config.board.gainReg)]
end

