-- ==== Sys2Proof/Laws/Config.lean ====
section
/-! SUPPORT. What the constraints of a configuration give: the settle bounds, and the gain decode on numbers. -/

namespace Sys2Proof

/-- A settle count holds a phase for at least `T_SETTLE` (41 R121): `SETTLE_CYCLES` is the ceiling. -/
theorem Config.settle_covers (C : Config) : C.tSettle * C.fClk ≤ (C.settleCycles : Rat) := by
  rw [C.settle_ceil]
  exact Nat.le_ceil _

/-- `SETTLE_CYCLES ≥ F_CLK × 1 µs` (70 R271). -/
theorem Config.settle_bound (C : Config) : C.fClk ≤ (C.settleCycles : Rat) :=
  le_trans (le_mul_of_one_le_left C.fClk_pos.le C.tSettle_min) C.settle_covers

/-- `SETTLE_CYCLES ≥ 1` (70 R271). -/
theorem Config.settle_pos (C : Config) : 1 ≤ C.settleCycles := by
  have h : (0 : Rat) < C.settleCycles := lt_of_lt_of_le C.fClk_pos C.settle_bound
  exact_mod_cast h

/-- Every configuration passes the acceptance test of 70 R271. -/
theorem Config.settleAccepted_self (C : Config) : Config.settleAccepted C.fClk C.settleCycles = true := by
  simp [Config.settleAccepted, C.settle_pos, C.settle_bound]

namespace Machine

/-- The decode is the sum of each table at its field's value. -/
theorem stageSum_eq_stageGain (p : StageFields) (d : StageDb) (w : Word16) : stageSum p d w = stageGain p d w := by
  simp [stageSum, stageGain, bitsOf, Nat.shiftRight_eq_div_pow]

theorem gainDecode_eq_stageGain (C : Config) (w : Word16) : gainDecode C w = stageGain C.stageFields C.stageDb w :=
  stageSum_eq_stageGain _ _ w

end Machine

end Sys2Proof
end

