-- ==== Sys2Proof/Laws/State.lean ====
section
/-! SUPPORT. One lemma per field per update of the state, each true by unfolding the update once. -/

namespace Sys2Proof.Machine

/-! ## record -/

@[simp] theorem State.record_pos (s : State) (k : EventKind) (a : Addr) (w : Word16) (o : Origin) : (s.record k a w o).pos = s.pos := rfl
@[simp] theorem State.record_txFrame (s : State) (k : EventKind) (a : Addr) (w : Word16) (o : Origin) : (s.record k a w o).txFrame = s.txFrame := rfl
@[simp] theorem State.record_rxShift (s : State) (k : EventKind) (a : Addr) (w : Word16) (o : Origin) : (s.record k a w o).rxShift = s.rxShift := rfl
@[simp] theorem State.record_settle (s : State) (k : EventKind) (a : Addr) (w : Word16) (o : Origin) : (s.record k a w o).settle = s.settle := rfl
@[simp] theorem State.record_cmdLatch (s : State) (k : EventKind) (a : Addr) (w : Word16) (o : Origin) : (s.record k a w o).cmdLatch = s.cmdLatch := rfl
@[simp] theorem State.record_agcRaw (s : State) (k : EventKind) (a : Addr) (w : Word16) (o : Origin) : (s.record k a w o).agcRaw = s.agcRaw := rfl
@[simp] theorem State.record_pins (s : State) (k : EventKind) (a : Addr) (w : Word16) (o : Origin) : (s.record k a w o).pins = s.pins := rfl
@[simp] theorem State.record_rsp (s : State) (k : EventKind) (a : Addr) (w : Word16) (o : Origin) : (s.record k a w o).rsp = s.rsp := rfl
@[simp] theorem State.record_trk0 (s : State) (k : EventKind) (a : Addr) (w : Word16) (o : Origin) : (s.record k a w o).trk0 = s.trk0 := rfl
@[simp] theorem State.record_trk1 (s : State) (k : EventKind) (a : Addr) (w : Word16) (o : Origin) : (s.record k a w o).trk1 = s.trk1 := rfl
@[simp] theorem State.record_lastFreq0 (s : State) (k : EventKind) (a : Addr) (w : Word16) (o : Origin) : (s.record k a w o).lastFreq0 = s.lastFreq0 := rfl
@[simp] theorem State.record_lastFreq1 (s : State) (k : EventKind) (a : Addr) (w : Word16) (o : Origin) : (s.record k a w o).lastFreq1 = s.lastFreq1 := rfl
@[simp] theorem State.record_gainDiff (s : State) (k : EventKind) (a : Addr) (w : Word16) (o : Origin) : (s.record k a w o).gainDiff = s.gainDiff := rfl
@[simp] theorem State.record_devUndefined (s : State) (k : EventKind) (a : Addr) (w : Word16) (o : Origin) : (s.record k a w o).devUndefined = s.devUndefined := rfl
@[simp] theorem State.record_history (s : State) (k : EventKind) (a : Addr) (w : Word16) (o : Origin) : (s.record k a w o).history = s.history ++ [⟨s.history.length, k, a, w, o⟩] := rfl
@[simp] theorem State.record_port (s : State) (k : EventKind) (a : Addr) (w : Word16) (o : Origin) : (s.record k a w o).port = s.port := rfl
@[simp] theorem State.record_hostResult (s : State) (k : EventKind) (a : Addr) (w : Word16) (o : Origin) : (s.record k a w o).hostResult = s.hostResult := rfl
@[simp] theorem State.record_refusal (s : State) (k : EventKind) (a : Addr) (w : Word16) (o : Origin) : (s.record k a w o).refusal = s.refusal := rfl
@[simp] theorem State.record_trk (s : State) (k : EventKind) (a : Addr) (w : Word16) (o : Origin) (v : Vfo) : (s.record k a w o).trk v = s.trk v := by cases v <;> rfl
@[simp] theorem State.record_lastFreq (s : State) (k : EventKind) (a : Addr) (w : Word16) (o : Origin) (v : Vfo) : (s.record k a w o).lastFreq v = s.lastFreq v := by cases v <;> rfl

/-! ## latch -/

@[simp] theorem State.latch_pos (s : State) (c : CmdWord) : (s.latch c).pos = s.pos := rfl
@[simp] theorem State.latch_txFrame (s : State) (c : CmdWord) : (s.latch c).txFrame = s.txFrame := rfl
@[simp] theorem State.latch_rxShift (s : State) (c : CmdWord) : (s.latch c).rxShift = s.rxShift := rfl
@[simp] theorem State.latch_settle (s : State) (c : CmdWord) : (s.latch c).settle = s.settle := rfl
@[simp] theorem State.latch_cmdLatch (s : State) (c : CmdWord) : (s.latch c).cmdLatch = c := rfl
@[simp] theorem State.latch_agcRaw (s : State) (c : CmdWord) : (s.latch c).agcRaw = s.agcRaw := rfl
@[simp] theorem State.latch_pins (s : State) (c : CmdWord) : (s.latch c).pins = s.pins := rfl
@[simp] theorem State.latch_rsp (s : State) (c : CmdWord) : (s.latch c).rsp = { s.rsp with valid := false } := rfl
@[simp] theorem State.latch_trk0 (s : State) (c : CmdWord) : (s.latch c).trk0 = s.trk0 := rfl
@[simp] theorem State.latch_trk1 (s : State) (c : CmdWord) : (s.latch c).trk1 = s.trk1 := rfl
@[simp] theorem State.latch_lastFreq0 (s : State) (c : CmdWord) : (s.latch c).lastFreq0 = s.lastFreq0 := rfl
@[simp] theorem State.latch_lastFreq1 (s : State) (c : CmdWord) : (s.latch c).lastFreq1 = s.lastFreq1 := rfl
@[simp] theorem State.latch_gainDiff (s : State) (c : CmdWord) : (s.latch c).gainDiff = s.gainDiff := rfl
@[simp] theorem State.latch_devUndefined (s : State) (c : CmdWord) : (s.latch c).devUndefined = s.devUndefined := rfl
@[simp] theorem State.latch_history (s : State) (c : CmdWord) : (s.latch c).history = s.history := rfl
@[simp] theorem State.latch_port (s : State) (c : CmdWord) : (s.latch c).port = s.port := rfl
@[simp] theorem State.latch_hostResult (s : State) (c : CmdWord) : (s.latch c).hostResult = s.hostResult := rfl
@[simp] theorem State.latch_refusal (s : State) (c : CmdWord) : (s.latch c).refusal = s.refusal := rfl
@[simp] theorem State.latch_trk (s : State) (c : CmdWord) (v : Vfo) : (s.latch c).trk v = s.trk v := by cases v <;> rfl
@[simp] theorem State.latch_lastFreq (s : State) (c : CmdWord) (v : Vfo) : (s.latch c).lastFreq v = s.lastFreq v := by cases v <;> rfl

/-! ## respond -/

@[simp] theorem State.respond_pos (s : State) (st : RspStatus) (d : Word16) : (s.respond st d).pos = Pos.start := rfl
@[simp] theorem State.respond_txFrame (s : State) (st : RspStatus) (d : Word16) : (s.respond st d).txFrame = s.txFrame := rfl
@[simp] theorem State.respond_rxShift (s : State) (st : RspStatus) (d : Word16) : (s.respond st d).rxShift = s.rxShift := rfl
@[simp] theorem State.respond_settle (s : State) (st : RspStatus) (d : Word16) : (s.respond st d).settle = 0 := rfl
@[simp] theorem State.respond_cmdLatch (s : State) (st : RspStatus) (d : Word16) : (s.respond st d).cmdLatch = s.cmdLatch := rfl
@[simp] theorem State.respond_agcRaw (s : State) (st : RspStatus) (d : Word16) : (s.respond st d).agcRaw = s.agcRaw := rfl
@[simp] theorem State.respond_pins (s : State) (st : RspStatus) (d : Word16) : (s.respond st d).pins = s.pins := rfl
@[simp] theorem State.respond_rsp (s : State) (st : RspStatus) (d : Word16) : (s.respond st d).rsp = ⟨true, st, d⟩ := rfl
@[simp] theorem State.respond_trk0 (s : State) (st : RspStatus) (d : Word16) : (s.respond st d).trk0 = s.trk0 := rfl
@[simp] theorem State.respond_trk1 (s : State) (st : RspStatus) (d : Word16) : (s.respond st d).trk1 = s.trk1 := rfl
@[simp] theorem State.respond_lastFreq0 (s : State) (st : RspStatus) (d : Word16) : (s.respond st d).lastFreq0 = s.lastFreq0 := rfl
@[simp] theorem State.respond_lastFreq1 (s : State) (st : RspStatus) (d : Word16) : (s.respond st d).lastFreq1 = s.lastFreq1 := rfl
@[simp] theorem State.respond_gainDiff (s : State) (st : RspStatus) (d : Word16) : (s.respond st d).gainDiff = s.gainDiff := rfl
@[simp] theorem State.respond_devUndefined (s : State) (st : RspStatus) (d : Word16) : (s.respond st d).devUndefined = s.devUndefined := rfl
@[simp] theorem State.respond_history (s : State) (st : RspStatus) (d : Word16) : (s.respond st d).history = s.history := rfl
@[simp] theorem State.respond_port (s : State) (st : RspStatus) (d : Word16) : (s.respond st d).port = s.port := rfl
@[simp] theorem State.respond_hostResult (s : State) (st : RspStatus) (d : Word16) : (s.respond st d).hostResult = s.hostResult := rfl
@[simp] theorem State.respond_refusal (s : State) (st : RspStatus) (d : Word16) : (s.respond st d).refusal = none := rfl
@[simp] theorem State.respond_trk (s : State) (st : RspStatus) (d : Word16) (v : Vfo) : (s.respond st d).trk v = s.trk v := by cases v <;> rfl
@[simp] theorem State.respond_lastFreq (s : State) (st : RspStatus) (d : Word16) (v : Vfo) : (s.respond st d).lastFreq v = s.lastFreq v := by cases v <;> rfl

/-! ## refuse -/

@[simp] theorem State.refuse_pos (s : State) (r : IllegalReason) : (s.refuse r).pos = Pos.start := rfl
@[simp] theorem State.refuse_txFrame (s : State) (r : IllegalReason) : (s.refuse r).txFrame = s.txFrame := rfl
@[simp] theorem State.refuse_rxShift (s : State) (r : IllegalReason) : (s.refuse r).rxShift = s.rxShift := rfl
@[simp] theorem State.refuse_settle (s : State) (r : IllegalReason) : (s.refuse r).settle = 0 := rfl
@[simp] theorem State.refuse_cmdLatch (s : State) (r : IllegalReason) : (s.refuse r).cmdLatch = s.cmdLatch := rfl
@[simp] theorem State.refuse_agcRaw (s : State) (r : IllegalReason) : (s.refuse r).agcRaw = s.agcRaw := rfl
@[simp] theorem State.refuse_pins (s : State) (r : IllegalReason) : (s.refuse r).pins = s.pins := rfl
@[simp] theorem State.refuse_rsp (s : State) (r : IllegalReason) : (s.refuse r).rsp = ⟨true, .refused, 0#16⟩ := rfl
@[simp] theorem State.refuse_trk0 (s : State) (r : IllegalReason) : (s.refuse r).trk0 = s.trk0 := rfl
@[simp] theorem State.refuse_trk1 (s : State) (r : IllegalReason) : (s.refuse r).trk1 = s.trk1 := rfl
@[simp] theorem State.refuse_lastFreq0 (s : State) (r : IllegalReason) : (s.refuse r).lastFreq0 = s.lastFreq0 := rfl
@[simp] theorem State.refuse_lastFreq1 (s : State) (r : IllegalReason) : (s.refuse r).lastFreq1 = s.lastFreq1 := rfl
@[simp] theorem State.refuse_gainDiff (s : State) (r : IllegalReason) : (s.refuse r).gainDiff = s.gainDiff := rfl
@[simp] theorem State.refuse_devUndefined (s : State) (r : IllegalReason) : (s.refuse r).devUndefined = s.devUndefined := rfl
@[simp] theorem State.refuse_history (s : State) (r : IllegalReason) : (s.refuse r).history = s.history := rfl
@[simp] theorem State.refuse_port (s : State) (r : IllegalReason) : (s.refuse r).port = s.port := rfl
@[simp] theorem State.refuse_hostResult (s : State) (r : IllegalReason) : (s.refuse r).hostResult = s.hostResult := rfl
@[simp] theorem State.refuse_refusal (s : State) (r : IllegalReason) : (s.refuse r).refusal = some r := rfl
@[simp] theorem State.refuse_trk (s : State) (r : IllegalReason) (v : Vfo) : (s.refuse r).trk v = s.trk v := by cases v <;> rfl
@[simp] theorem State.refuse_lastFreq (s : State) (r : IllegalReason) (v : Vfo) : (s.refuse r).lastFreq v = s.lastFreq v := by cases v <;> rfl

/-! ## endFrame -/

@[simp] theorem State.endFrame_pos (s : State) : s.endFrame.pos = Pos.start := rfl
@[simp] theorem State.endFrame_txFrame (s : State) : s.endFrame.txFrame = s.txFrame := rfl
@[simp] theorem State.endFrame_rxShift (s : State) : s.endFrame.rxShift = s.rxShift := rfl
@[simp] theorem State.endFrame_settle (s : State) : s.endFrame.settle = 0 := rfl
@[simp] theorem State.endFrame_cmdLatch (s : State) : s.endFrame.cmdLatch = s.cmdLatch := rfl
@[simp] theorem State.endFrame_agcRaw (s : State) : s.endFrame.agcRaw = s.agcRaw := rfl
@[simp] theorem State.endFrame_pins (s : State) : s.endFrame.pins = s.pins := rfl
@[simp] theorem State.endFrame_rsp (s : State) : s.endFrame.rsp = { s.rsp with valid := false } := rfl
@[simp] theorem State.endFrame_trk0 (s : State) : s.endFrame.trk0 = s.trk0 := rfl
@[simp] theorem State.endFrame_trk1 (s : State) : s.endFrame.trk1 = s.trk1 := rfl
@[simp] theorem State.endFrame_lastFreq0 (s : State) : s.endFrame.lastFreq0 = s.lastFreq0 := rfl
@[simp] theorem State.endFrame_lastFreq1 (s : State) : s.endFrame.lastFreq1 = s.lastFreq1 := rfl
@[simp] theorem State.endFrame_gainDiff (s : State) : s.endFrame.gainDiff = s.gainDiff := rfl
@[simp] theorem State.endFrame_devUndefined (s : State) : s.endFrame.devUndefined = s.devUndefined := rfl
@[simp] theorem State.endFrame_history (s : State) : s.endFrame.history = s.history := rfl
@[simp] theorem State.endFrame_port (s : State) : s.endFrame.port = s.port := rfl
@[simp] theorem State.endFrame_hostResult (s : State) : s.endFrame.hostResult = s.hostResult := rfl
@[simp] theorem State.endFrame_refusal (s : State) : s.endFrame.refusal = s.refusal := rfl
@[simp] theorem State.endFrame_trk (s : State) (v : Vfo) : s.endFrame.trk v = s.trk v := by cases v <;> rfl
@[simp] theorem State.endFrame_lastFreq (s : State) (v : Vfo) : s.endFrame.lastFreq v = s.lastFreq v := by cases v <;> rfl

/-! ## idleCycle -/

@[simp] theorem State.idleCycle_pos (s : State) : s.idleCycle.pos = s.pos := rfl
@[simp] theorem State.idleCycle_txFrame (s : State) : s.idleCycle.txFrame = s.txFrame := rfl
@[simp] theorem State.idleCycle_rxShift (s : State) : s.idleCycle.rxShift = s.rxShift := rfl
@[simp] theorem State.idleCycle_settle (s : State) : s.idleCycle.settle = s.settle := rfl
@[simp] theorem State.idleCycle_cmdLatch (s : State) : s.idleCycle.cmdLatch = s.cmdLatch := rfl
@[simp] theorem State.idleCycle_agcRaw (s : State) : s.idleCycle.agcRaw = s.agcRaw := rfl
@[simp] theorem State.idleCycle_pins (s : State) : s.idleCycle.pins = s.pins := rfl
@[simp] theorem State.idleCycle_rsp (s : State) : s.idleCycle.rsp = { s.rsp with valid := false } := rfl
@[simp] theorem State.idleCycle_trk0 (s : State) : s.idleCycle.trk0 = s.trk0 := rfl
@[simp] theorem State.idleCycle_trk1 (s : State) : s.idleCycle.trk1 = s.trk1 := rfl
@[simp] theorem State.idleCycle_lastFreq0 (s : State) : s.idleCycle.lastFreq0 = s.lastFreq0 := rfl
@[simp] theorem State.idleCycle_lastFreq1 (s : State) : s.idleCycle.lastFreq1 = s.lastFreq1 := rfl
@[simp] theorem State.idleCycle_gainDiff (s : State) : s.idleCycle.gainDiff = s.gainDiff := rfl
@[simp] theorem State.idleCycle_devUndefined (s : State) : s.idleCycle.devUndefined = s.devUndefined := rfl
@[simp] theorem State.idleCycle_history (s : State) : s.idleCycle.history = s.history := rfl
@[simp] theorem State.idleCycle_port (s : State) : s.idleCycle.port = s.port := rfl
@[simp] theorem State.idleCycle_hostResult (s : State) : s.idleCycle.hostResult = s.hostResult := rfl
@[simp] theorem State.idleCycle_refusal (s : State) : s.idleCycle.refusal = s.refusal := rfl
@[simp] theorem State.idleCycle_trk (s : State) (v : Vfo) : s.idleCycle.trk v = s.trk v := by cases v <;> rfl
@[simp] theorem State.idleCycle_lastFreq (s : State) (v : Vfo) : s.idleCycle.lastFreq v = s.lastFreq v := by cases v <;> rfl

/-! ## give -/

@[simp] theorem State.give_pos (s : State) (r : HostResult) : (s.give r).pos = s.pos := rfl
@[simp] theorem State.give_txFrame (s : State) (r : HostResult) : (s.give r).txFrame = s.txFrame := rfl
@[simp] theorem State.give_rxShift (s : State) (r : HostResult) : (s.give r).rxShift = s.rxShift := rfl
@[simp] theorem State.give_settle (s : State) (r : HostResult) : (s.give r).settle = s.settle := rfl
@[simp] theorem State.give_cmdLatch (s : State) (r : HostResult) : (s.give r).cmdLatch = s.cmdLatch := rfl
@[simp] theorem State.give_agcRaw (s : State) (r : HostResult) : (s.give r).agcRaw = s.agcRaw := rfl
@[simp] theorem State.give_pins (s : State) (r : HostResult) : (s.give r).pins = s.pins := rfl
@[simp] theorem State.give_rsp (s : State) (r : HostResult) : (s.give r).rsp = s.rsp := rfl
@[simp] theorem State.give_trk0 (s : State) (r : HostResult) : (s.give r).trk0 = s.trk0 := rfl
@[simp] theorem State.give_trk1 (s : State) (r : HostResult) : (s.give r).trk1 = s.trk1 := rfl
@[simp] theorem State.give_lastFreq0 (s : State) (r : HostResult) : (s.give r).lastFreq0 = s.lastFreq0 := rfl
@[simp] theorem State.give_lastFreq1 (s : State) (r : HostResult) : (s.give r).lastFreq1 = s.lastFreq1 := rfl
@[simp] theorem State.give_gainDiff (s : State) (r : HostResult) : (s.give r).gainDiff = s.gainDiff := rfl
@[simp] theorem State.give_devUndefined (s : State) (r : HostResult) : (s.give r).devUndefined = s.devUndefined := rfl
@[simp] theorem State.give_history (s : State) (r : HostResult) : (s.give r).history = s.history := rfl
@[simp] theorem State.give_port (s : State) (r : HostResult) : (s.give r).port = s.port := rfl
@[simp] theorem State.give_hostResult (s : State) (r : HostResult) : (s.give r).hostResult = r := rfl
@[simp] theorem State.give_refusal (s : State) (r : HostResult) : (s.give r).refusal = s.refusal := rfl
@[simp] theorem State.give_trk (s : State) (r : HostResult) (v : Vfo) : (s.give r).trk v = s.trk v := by cases v <;> rfl
@[simp] theorem State.give_lastFreq (s : State) (r : HostResult) (v : Vfo) : (s.give r).lastFreq v = s.lastFreq v := by cases v <;> rfl

/-! ## setTrk -/

@[simp] theorem State.setTrk_pos (s : State) (v : Vfo) (t : Tracker) : (s.setTrk v t).pos = s.pos := by cases v <;> rfl
@[simp] theorem State.setTrk_txFrame (s : State) (v : Vfo) (t : Tracker) : (s.setTrk v t).txFrame = s.txFrame := by cases v <;> rfl
@[simp] theorem State.setTrk_rxShift (s : State) (v : Vfo) (t : Tracker) : (s.setTrk v t).rxShift = s.rxShift := by cases v <;> rfl
@[simp] theorem State.setTrk_settle (s : State) (v : Vfo) (t : Tracker) : (s.setTrk v t).settle = s.settle := by cases v <;> rfl
@[simp] theorem State.setTrk_cmdLatch (s : State) (v : Vfo) (t : Tracker) : (s.setTrk v t).cmdLatch = s.cmdLatch := by cases v <;> rfl
@[simp] theorem State.setTrk_agcRaw (s : State) (v : Vfo) (t : Tracker) : (s.setTrk v t).agcRaw = s.agcRaw := by cases v <;> rfl
@[simp] theorem State.setTrk_pins (s : State) (v : Vfo) (t : Tracker) : (s.setTrk v t).pins = s.pins := by cases v <;> rfl
@[simp] theorem State.setTrk_rsp (s : State) (v : Vfo) (t : Tracker) : (s.setTrk v t).rsp = s.rsp := by cases v <;> rfl
@[simp] theorem State.setTrk_lastFreq0 (s : State) (v : Vfo) (t : Tracker) : (s.setTrk v t).lastFreq0 = s.lastFreq0 := by cases v <;> rfl
@[simp] theorem State.setTrk_lastFreq1 (s : State) (v : Vfo) (t : Tracker) : (s.setTrk v t).lastFreq1 = s.lastFreq1 := by cases v <;> rfl
@[simp] theorem State.setTrk_gainDiff (s : State) (v : Vfo) (t : Tracker) : (s.setTrk v t).gainDiff = s.gainDiff := by cases v <;> rfl
@[simp] theorem State.setTrk_devUndefined (s : State) (v : Vfo) (t : Tracker) : (s.setTrk v t).devUndefined = s.devUndefined := by cases v <;> rfl
@[simp] theorem State.setTrk_history (s : State) (v : Vfo) (t : Tracker) : (s.setTrk v t).history = s.history := by cases v <;> rfl
@[simp] theorem State.setTrk_port (s : State) (v : Vfo) (t : Tracker) : (s.setTrk v t).port = s.port := by cases v <;> rfl
@[simp] theorem State.setTrk_hostResult (s : State) (v : Vfo) (t : Tracker) : (s.setTrk v t).hostResult = s.hostResult := by cases v <;> rfl
@[simp] theorem State.setTrk_refusal (s : State) (v : Vfo) (t : Tracker) : (s.setTrk v t).refusal = s.refusal := by cases v <;> rfl

/-! ## setLastFreq -/

@[simp] theorem State.setLastFreq_pos (s : State) (v : Vfo) (f : Word32) : (s.setLastFreq v f).pos = s.pos := by cases v <;> rfl
@[simp] theorem State.setLastFreq_txFrame (s : State) (v : Vfo) (f : Word32) : (s.setLastFreq v f).txFrame = s.txFrame := by cases v <;> rfl
@[simp] theorem State.setLastFreq_rxShift (s : State) (v : Vfo) (f : Word32) : (s.setLastFreq v f).rxShift = s.rxShift := by cases v <;> rfl
@[simp] theorem State.setLastFreq_settle (s : State) (v : Vfo) (f : Word32) : (s.setLastFreq v f).settle = s.settle := by cases v <;> rfl
@[simp] theorem State.setLastFreq_cmdLatch (s : State) (v : Vfo) (f : Word32) : (s.setLastFreq v f).cmdLatch = s.cmdLatch := by cases v <;> rfl
@[simp] theorem State.setLastFreq_agcRaw (s : State) (v : Vfo) (f : Word32) : (s.setLastFreq v f).agcRaw = s.agcRaw := by cases v <;> rfl
@[simp] theorem State.setLastFreq_pins (s : State) (v : Vfo) (f : Word32) : (s.setLastFreq v f).pins = s.pins := by cases v <;> rfl
@[simp] theorem State.setLastFreq_rsp (s : State) (v : Vfo) (f : Word32) : (s.setLastFreq v f).rsp = s.rsp := by cases v <;> rfl
@[simp] theorem State.setLastFreq_trk0 (s : State) (v : Vfo) (f : Word32) : (s.setLastFreq v f).trk0 = s.trk0 := by cases v <;> rfl
@[simp] theorem State.setLastFreq_trk1 (s : State) (v : Vfo) (f : Word32) : (s.setLastFreq v f).trk1 = s.trk1 := by cases v <;> rfl
@[simp] theorem State.setLastFreq_gainDiff (s : State) (v : Vfo) (f : Word32) : (s.setLastFreq v f).gainDiff = s.gainDiff := by cases v <;> rfl
@[simp] theorem State.setLastFreq_devUndefined (s : State) (v : Vfo) (f : Word32) : (s.setLastFreq v f).devUndefined = s.devUndefined := by cases v <;> rfl
@[simp] theorem State.setLastFreq_history (s : State) (v : Vfo) (f : Word32) : (s.setLastFreq v f).history = s.history := by cases v <;> rfl
@[simp] theorem State.setLastFreq_port (s : State) (v : Vfo) (f : Word32) : (s.setLastFreq v f).port = s.port := by cases v <;> rfl
@[simp] theorem State.setLastFreq_hostResult (s : State) (v : Vfo) (f : Word32) : (s.setLastFreq v f).hostResult = s.hostResult := by cases v <;> rfl
@[simp] theorem State.setLastFreq_refusal (s : State) (v : Vfo) (f : Word32) : (s.setLastFreq v f).refusal = s.refusal := by cases v <;> rfl

@[simp] theorem State.setTrk_trk_self (s : State) (v : Vfo) (t : Tracker) : (s.setTrk v t).trk v = t := by cases v <;> rfl
theorem State.setTrk_trk_other (s : State) {v u : Vfo} (t : Tracker) (h : u ≠ v) : (s.setTrk v t).trk u = s.trk u := by
  cases v <;> cases u <;> first | rfl | exact absurd rfl h
@[simp] theorem State.setTrk_lastFreq (s : State) (v u : Vfo) (t : Tracker) : (s.setTrk v t).lastFreq u = s.lastFreq u := by
  cases v <;> cases u <;> rfl
@[simp] theorem State.setLastFreq_self (s : State) (v : Vfo) (f : Word32) : (s.setLastFreq v f).lastFreq v = some f := by
  cases v <;> rfl
theorem State.setLastFreq_other (s : State) {v u : Vfo} (f : Word32) (h : u ≠ v) :
    (s.setLastFreq v f).lastFreq u = s.lastFreq u := by
  cases v <;> cases u <;> first | rfl | exact absurd rfl h
@[simp] theorem State.setLastFreq_trk (s : State) (v u : Vfo) (f : Word32) : (s.setLastFreq v f).trk u = s.trk u := by
  cases v <;> cases u <;> rfl

/-! ## resetBlock -/

@[simp] theorem resetBlock_pos (C : Config) (s : State) : (resetBlock C s).pos = Pos.start := rfl
@[simp] theorem resetBlock_txFrame (C : Config) (s : State) : (resetBlock C s).txFrame = 0#24 := rfl
@[simp] theorem resetBlock_rxShift (C : Config) (s : State) : (resetBlock C s).rxShift = 0#16 := rfl
@[simp] theorem resetBlock_settle (C : Config) (s : State) : (resetBlock C s).settle = 0 := rfl
@[simp] theorem resetBlock_cmdLatch (C : Config) (s : State) : (resetBlock C s).cmdLatch = 0#64 := rfl
@[simp] theorem resetBlock_agcRaw (C : Config) (s : State) : (resetBlock C s).agcRaw = 0#16 := rfl
@[simp] theorem resetBlock_pins (C : Config) (s : State) : (resetBlock C s).pins = ⟨C.csActiveLow, false, false, true⟩ := rfl
@[simp] theorem resetBlock_rsp (C : Config) (s : State) : (resetBlock C s).rsp = ⟨false, .ok, 0#16⟩ := rfl
@[simp] theorem resetBlock_trk0 (C : Config) (s : State) : (resetBlock C s).trk0 = Tracker.start := rfl
@[simp] theorem resetBlock_trk1 (C : Config) (s : State) : (resetBlock C s).trk1 = Tracker.start := rfl
@[simp] theorem resetBlock_lastFreq0 (C : Config) (s : State) : (resetBlock C s).lastFreq0 = none := rfl
@[simp] theorem resetBlock_lastFreq1 (C : Config) (s : State) : (resetBlock C s).lastFreq1 = none := rfl
@[simp] theorem resetBlock_gainDiff (C : Config) (s : State) : (resetBlock C s).gainDiff = 0 := rfl
@[simp] theorem resetBlock_devUndefined (C : Config) (s : State) : (resetBlock C s).devUndefined = (s.devUndefined || csAsserted s.pos.phase) := rfl
@[simp] theorem resetBlock_history (C : Config) (s : State) : (resetBlock C s).history = s.history := rfl
@[simp] theorem resetBlock_port (C : Config) (s : State) : (resetBlock C s).port = s.port := rfl
@[simp] theorem resetBlock_hostResult (C : Config) (s : State) : (resetBlock C s).hostResult = s.hostResult := rfl
@[simp] theorem resetBlock_refusal (C : Config) (s : State) : (resetBlock C s).refusal = none := rfl
@[simp] theorem resetBlock_trk (C : Config) (s : State) (v : Vfo) : (resetBlock C s).trk v = Tracker.start := by cases v <;> rfl
@[simp] theorem resetBlock_lastFreq (C : Config) (s : State) (v : Vfo) : (resetBlock C s).lastFreq v = none := by cases v <;> rfl

/-! ## transact -/

@[simp] theorem transact_pos (C : Config) (f : Frame) (w : Word16) (o : Origin) (s : State) : (transact C f w o s).pos = s.pos := rfl
@[simp] theorem transact_txFrame (C : Config) (f : Frame) (w : Word16) (o : Origin) (s : State) : (transact C f w o s).txFrame = f := rfl
@[simp] theorem transact_settle (C : Config) (f : Frame) (w : Word16) (o : Origin) (s : State) : (transact C f w o s).settle = s.settle := rfl
@[simp] theorem transact_cmdLatch (C : Config) (f : Frame) (w : Word16) (o : Origin) (s : State) : (transact C f w o s).cmdLatch = s.cmdLatch := rfl
@[simp] theorem transact_agcRaw (C : Config) (f : Frame) (w : Word16) (o : Origin) (s : State) : (transact C f w o s).agcRaw = s.agcRaw := rfl
@[simp] theorem transact_rsp (C : Config) (f : Frame) (w : Word16) (o : Origin) (s : State) : (transact C f w o s).rsp = s.rsp := rfl
@[simp] theorem transact_trk0 (C : Config) (f : Frame) (w : Word16) (o : Origin) (s : State) : (transact C f w o s).trk0 = s.trk0 := rfl
@[simp] theorem transact_trk1 (C : Config) (f : Frame) (w : Word16) (o : Origin) (s : State) : (transact C f w o s).trk1 = s.trk1 := rfl
@[simp] theorem transact_lastFreq0 (C : Config) (f : Frame) (w : Word16) (o : Origin) (s : State) : (transact C f w o s).lastFreq0 = s.lastFreq0 := rfl
@[simp] theorem transact_lastFreq1 (C : Config) (f : Frame) (w : Word16) (o : Origin) (s : State) : (transact C f w o s).lastFreq1 = s.lastFreq1 := rfl
@[simp] theorem transact_gainDiff (C : Config) (f : Frame) (w : Word16) (o : Origin) (s : State) : (transact C f w o s).gainDiff = s.gainDiff := rfl
@[simp] theorem transact_devUndefined (C : Config) (f : Frame) (w : Word16) (o : Origin) (s : State) : (transact C f w o s).devUndefined = s.devUndefined := rfl
@[simp] theorem transact_port (C : Config) (f : Frame) (w : Word16) (o : Origin) (s : State) : (transact C f w o s).port = s.port := rfl
@[simp] theorem transact_hostResult (C : Config) (f : Frame) (w : Word16) (o : Origin) (s : State) : (transact C f w o s).hostResult = s.hostResult := rfl
@[simp] theorem transact_refusal (C : Config) (f : Frame) (w : Word16) (o : Origin) (s : State) : (transact C f w o s).refusal = s.refusal := rfl
@[simp] theorem transact_trk (C : Config) (f : Frame) (w : Word16) (o : Origin) (s : State) (v : Vfo) : (transact C f w o s).trk v = s.trk v := by
  cases v <;> rfl
@[simp] theorem transact_lastFreq (C : Config) (f : Frame) (w : Word16) (o : Origin) (s : State) (v : Vfo) : (transact C f w o s).lastFreq v = s.lastFreq v := by
  cases v <;> rfl

end Sys2Proof.Machine
end

