-- ==== Sys2Proof/Laws/Wire.lean ====
section
/-! SUPPORT. What a whole transaction leaves on the pins and in `rxShift`, and the fields of a frame: said once, so that no
later proof runs the phase sequence. -/

namespace Sys2Proof.Machine

theorem runWire_eq_foldl (C : Config) (f : Frame) (answer : Word16) (a : Pins × Word16) :
    runWire C f answer a = (frameSeq f).foldl (runSlot C f answer) a := rfl

theorem frameSeq_write {f : Frame} (h : frameIsRead f = false) : frameSeq f = writeSeq := by
  simp [frameSeq, h]

theorem frameSeq_read {f : Frame} (h : frameIsRead f = true) : frameSeq f = readSeq := by
  simp [frameSeq, h]

/-- A write ends as IDLE's pins, `SDA` holding the last data bit, and samples nothing. -/
theorem runWire_write (C : Config) {f : Frame} (h : frameIsRead f = false) (answer : Word16) (p : Pins) (rx : Word16) :
    runWire C f answer (p, rx) = (⟨csLevel C false, false, frameBit f 23, true⟩, rx) := by
  rw [runWire_eq_foldl, frameSeq_write h]
  rfl

theorem getLsbD_setBit16 (v : Word16) {j : Nat} (hj : j < 16) (b : Bool) (i : Nat) :
    (setBit16 v j b).getLsbD i = if i = j then b else v.getLsbD i := by
  unfold setBit16
  cases b <;> by_cases hij : i = j
  · subst hij; simp [hj]
  · by_cases hi : i < 16
    · have : ¬(i - j = 0 ∧ j ≤ i) := by omega
      simp [hij, hi]; omega
    · simp [hij, BitVec.getLsbD_of_ge, Nat.le_of_not_lt hi]
  · subst hij; simp [hj]
  · simp [hij, BitVec.getLsbD_one]; omega

/-- Replacing the top `n` bits by those of `w`, most significant first. -/
theorem sampled_bits (w rx : Word16) (i : Nat) : ∀ n, n ≤ 16 →
    ((List.range n).foldl (fun a k => setBit16 a (15 - k) (w.getLsbD (15 - k))) rx).getLsbD i
      = if 16 - n ≤ i then w.getLsbD i else rx.getLsbD i
  | 0, _ => by
    by_cases h : 16 ≤ i
    · simp [h, BitVec.getLsbD_of_ge]
    · simp [h]
  | n + 1, hn => by
    rw [List.range_succ, List.foldl_append]
    simp only [List.foldl_cons, List.foldl_nil]
    rw [getLsbD_setBit16 _ (by omega), sampled_bits w rx i n (by omega)]
    by_cases h : i = 15 - n
    · subst h; simp
    · have : 16 - (n + 1) ≤ i ↔ 16 - n ≤ i := by omega
      simp only [if_neg h, this]

/-- Replacing each of the sixteen bits by that of `w` gives `w`. -/
theorem sampled_word (w rx : Word16) :
    (List.range 16).foldl (fun a k => setBit16 a (15 - k) (w.getLsbD (15 - k))) rx = w := by
  apply BitVec.eq_of_getLsbD_eq
  intro i _
  simpa using sampled_bits w rx i 16 (Nat.le_refl 16)

set_option maxRecDepth 4000 in
/-- A read ends as IDLE's pins, `SDA` holding the last address bit, and `rxShift` is the slave's answer. -/
theorem runWire_read (C : Config) {f : Frame} (h : frameIsRead f = true) (answer : Word16) (p : Pins) (rx : Word16) :
    runWire C f answer (p, rx) = (⟨csLevel C false, false, frameBit f 7, true⟩, answer) := by
  rw [runWire_eq_foldl, frameSeq_read h]
  have h2 : (readSeq.foldl (runSlot C f answer) (p, rx)).2
      = (List.range 16).foldl (fun a k => setBit16 a (15 - k) (answer.getLsbD (15 - k))) rx := rfl
  have h1 : (readSeq.foldl (runSlot C f answer) (p, rx)).1 = ⟨csLevel C false, false, frameBit f 7, true⟩ := rfl
  rw [sampled_word] at h2
  exact Prod.ext h1 h2

/-! ## The phase sequences -/

theorem pre_mem_frameSeq (f : Frame) : ((Phase.pre, 0) : Slot) ∈ frameSeq f := by
  unfold frameSeq; split <;> decide

theorem idle_not_mem_frameSeq (f : Frame) (b : Nat) : ((Phase.idle, b) : Slot) ∉ frameSeq f := by
  unfold frameSeq; split <;> simp [writeSeq, readSeq, addrSlots]

/-- The phase that follows a phase of a transaction is one of the transaction's. -/
theorem nextSlot_mem_frameSeq {f : Frame} {sl n : Slot} (h : sl ∈ frameSeq f)
    (hn : nextSlot (frameIsRead f) sl.1 sl.2 = some n) : n ∈ frameSeq f := by
  have hw : ∀ x ∈ writeSeq, (nextSlot false x.1 x.2).all (fun y => y ∈ writeSeq) = true := by decide
  have hr : ∀ x ∈ readSeq, (nextSlot true x.1 x.2).all (fun y => y ∈ readSeq) = true := by decide
  cases e : frameIsRead f
  · rw [frameSeq_write e] at h ⊢
    have := hw sl h
    rw [e] at hn
    simpa [hn] using this
  · rw [frameSeq_read e] at h ⊢
    have := hr sl h
    rw [e] at hn
    simpa [hn] using this

/-- Only POST ends a transaction. -/
theorem nextSlot_none {rd : Bool} {ph : Phase} {b : Nat} (h : nextSlot rd ph b = none) : ph = .idle ∨ ph = .post := by
  cases ph <;> simp [nextSlot] at h ⊢ <;> split at h <;> simp at h

/-! ## The fields of a frame -/

@[simp] theorem frameIsRead_writeFrame (a : Addr) (d : Word16) : frameIsRead (writeFrame a d) = false := by
  simp only [frameIsRead, writeFrame, BitVec.getLsbD_append]; simp

@[simp] theorem frameIsRead_readFrame (a : Addr) (d : Word16) : frameIsRead (readFrame a d) = true := by
  simp only [frameIsRead, readFrame, BitVec.getLsbD_append]; simp

theorem bitsOf_append_mid (x : BitVec 1) (a : Addr) (d : Word16) : bitsOf (x ++ a ++ d) 16 7 = a := by
  apply BitVec.eq_of_getLsbD_eq
  intro i hi
  simp only [bitsOf, BitVec.getLsbD_extractLsb', BitVec.getLsbD_append]
  interval_cases i <;> simp

theorem bitsOf_append_low (x : BitVec 1) (a : Addr) (d : Word16) : bitsOf (x ++ a ++ d) 0 16 = d := by
  apply BitVec.eq_of_getLsbD_eq
  intro i hi
  simp only [bitsOf, BitVec.getLsbD_extractLsb', BitVec.getLsbD_append]
  interval_cases i <;> simp

@[simp] theorem frameAddr_writeFrame (a : Addr) (d : Word16) : frameAddr (writeFrame a d) = a := bitsOf_append_mid ..
@[simp] theorem frameAddr_readFrame (a : Addr) (d : Word16) : frameAddr (readFrame a d) = a := bitsOf_append_mid ..
@[simp] theorem frameData_writeFrame (a : Addr) (d : Word16) : frameData (writeFrame a d) = d := bitsOf_append_low ..
@[simp] theorem frameData_readFrame (a : Addr) (d : Word16) : frameData (readFrame a d) = d := bitsOf_append_low ..

end Sys2Proof.Machine
end

