-- ==== Sys2Proof/Laws/Ops.lean ====
section
/-! SUPPORT. What each shared operation can do, said once: a transaction, a bus command, a list of writes, and that the
history keeps its canonical form. -/

namespace Sys2Proof.Machine

/-! ## Transactions -/

/-- A write transaction, whole. -/
theorem regWrite_eq (C : Config) (a : Addr) (d : Word16) (o : Origin) (s : State) :
    regWrite C a d o s = { s with
      txFrame := writeFrame a d
      pins    := ⟨csLevel C false, false, frameBit (writeFrame a d) 23, true⟩
      history := s.history ++ [⟨s.history.length, .wr, a, d, o⟩] } := by
  simp [regWrite, transact, runWire_write C (frameIsRead_writeFrame a d)]

/-- A read transaction against a given answer, whole. -/
theorem transact_read_eq (C : Config) (a : Addr) (w : Word16) (o : Origin) (s : State) :
    transact C (readFrame a 0#16) w o s = { s with
      txFrame := readFrame a 0#16
      rxShift := w
      pins    := ⟨csLevel C false, false, frameBit (readFrame a 0#16) 7, true⟩
      history := s.history ++ [⟨s.history.length, .rd, a, w, o⟩] } := by
  simp [transact, runWire_read C (frameIsRead_readFrame a 0#16)]

/-- A read transaction of the oracle, whole. -/
theorem regRead_eq (C : Config) (a : Addr) (o : Origin) (s : State) :
    regRead C a o s = { s with
      txFrame := readFrame a 0#16
      rxShift := C.oracle a s.history
      pins    := ⟨csLevel C false, false, frameBit (readFrame a 0#16) 7, true⟩
      history := s.history ++ [⟨s.history.length, .rd, a, C.oracle a s.history, o⟩] } :=
  transact_read_eq C a (C.oracle a s.history) o s

/-! ## Bus commands -/

/-- BUS_WRITE, whole. -/
theorem busWriteOn_eq (C : Config) (a : Addr) (d : Word16) (s : State) :
    busWriteOn C a d s = { s with
      pos      := Pos.start
      settle   := 0
      txFrame  := writeFrame a d
      cmdLatch := busWriteWord a d
      pins     := ⟨csLevel C false, false, frameBit (writeFrame a d) 23, true⟩
      rsp      := ⟨true, .ok, 0#16⟩
      history  := s.history ++ [⟨s.history.length, .wr, a, d, .host⟩]
      refusal  := none } := by
  simp [busWriteOn, regWrite_eq, State.respond, State.latch]

/-- BUS_READ, whole. -/
theorem busReadOn_eq (C : Config) (a : Addr) (s : State) :
    busReadOn C a s = { s with
      pos      := Pos.start
      settle   := 0
      txFrame  := readFrame a 0#16
      rxShift  := C.oracle a s.history
      cmdLatch := busReadWord a
      pins     := ⟨csLevel C false, false, frameBit (readFrame a 0#16) 7, true⟩
      rsp      := ⟨true, .ok, C.oracle a s.history⟩
      history  := s.history ++ [⟨s.history.length, .rd, a, C.oracle a s.history, .host⟩]
      refusal  := none } := by
  simp [busReadOn, busReadTransaction, regRead_eq, State.respond, State.latch]

theorem sameAgc_refl (s : State) : SameAgc s s := ⟨fun _ => rfl, fun _ => rfl, rfl, rfl, rfl, rfl⟩

theorem sameAgc_trans {s t u : State} (h : SameAgc s t) (k : SameAgc t u) : SameAgc s u :=
  ⟨fun v => (k.trk v).trans (h.trk v), fun v => (k.lastFreq v).trans (h.lastFreq v), k.gainDiff.trans h.gainDiff,
    k.agcRaw.trans h.agcRaw, k.devUndefined.trans h.devUndefined, k.port.trans h.port⟩

theorem sameAgc_busWriteOn (C : Config) (a : Addr) (d : Word16) (s : State) : SameAgc s (busWriteOn C a d s) := by
  rw [busWriteOn_eq]
  exact ⟨fun v => by cases v <;> rfl, fun v => by cases v <;> rfl, rfl, rfl, rfl, rfl⟩

theorem sameAgc_busReadOn (C : Config) (a : Addr) (s : State) : SameAgc s (busReadOn C a s) := by
  rw [busReadOn_eq]
  exact ⟨fun v => by cases v <;> rfl, fun v => by cases v <;> rfl, rfl, rfl, rfl, rfl⟩

theorem sameAgc_give (r : HostResult) (s : State) : SameAgc s (s.give r) :=
  ⟨fun v => by cases v <;> rfl, fun v => by cases v <;> rfl, rfl, rfl, rfl, rfl⟩

theorem sameAgc_writeAllOn (C : Config) : ∀ (l : List RegWord) (s : State), SameAgc s (writeAllOn C l s)
  | [], s => sameAgc_refl s
  | r :: rest, s => sameAgc_trans (sameAgc_busWriteOn C r.addr r.word s) (sameAgc_writeAllOn C rest _)

/-! ## History -/

theorem historyWf_nil : historyWf [] = true := rfl

/-- Appending an event at the next position keeps the canonical form (20 R68). -/
theorem historyWf_append {h : List Event} (hw : historyWf h = true) (k : EventKind) (a : Addr) (w : Word16) (o : Origin) :
    historyWf (h ++ [⟨h.length, k, a, w, o⟩]) = true := by
  have : h.map Event.seq = List.range h.length := by simpa [historyWf] using hw
  simp [historyWf, this, List.range_succ]

theorem historyWf_record {s : State} (h : historyWf s.history = true) (k : EventKind) (a : Addr) (w : Word16) (o : Origin) :
    historyWf (s.record k a w o).history = true := historyWf_append h k a w o

/-- Every transaction keeps the canonical form. -/
theorem historyWf_transact (C : Config) (f : Frame) (w : Word16) (o : Origin) {s : State} (h : historyWf s.history = true) :
    historyWf (transact C f w o s).history = true := historyWf_append h ..

end Sys2Proof.Machine
end

