-- ==== Sys2Proof/Laws/Agc.lean ====
section
/-! SUPPORT. What the operations of the AGC procedure can do, said once each. -/

namespace Sys2Proof.Machine

/-! ## Which state a tick's parts touch -/

@[simp] theorem agcStep1_trk_self (v : Vfo) (f : Word32) (s : State) :
    (agcStep1 v f s).trk v = if s.lastFreq v = some f then s.trk v else trackerFreqReset (s.trk v) := by
  unfold agcStep1; split <;> simp

@[simp] theorem agcStep1_lastFreq_self (v : Vfo) (f : Word32) (s : State) : (agcStep1 v f s).lastFreq v = some f := by
  unfold agcStep1; split <;> simp [*]

@[simp] theorem agcStep1_history (v : Vfo) (f : Word32) (s : State) : (agcStep1 v f s).history = s.history := by
  unfold agcStep1; split <;> simp

/-- Step 8 with a write, whole. -/
theorem agcApply_trk_self (C : Config) (v : Vfo) (s : State) :
    (agcApply C v s).trk v = { s.trk v with prevIdx := some (s.trk v).idx } := by
  cases v <;> rfl

theorem agcApply_gainDiff (C : Config) (v : Vfo) (s : State) :
    (agcApply C v s).gainDiff = (gainEntry C 0).gain - (gainEntry C (s.trk v).idx).gain := rfl

/-! ## The steps on a tracker -/

theorem coarseWalk_le (C : Config) (desired : Int) : ∀ i, coarseWalk C desired i ≤ i
  | 0 => Nat.le_refl 0
  | i + 1 => by
    unfold coarseWalk
    split
    · exact Nat.le_succ_of_le (coarseWalk_le C desired i)
    · exact Nat.le_refl _

theorem attenuatedIdx_pos (C : Config) (d : Int) (i : Nat) : 1 ≤ attenuatedIdx C d i := Nat.le_max_left ..

theorem attenuatedIdx_le (C : Config) (d : Int) (i : Nat) : attenuatedIdx C d i ≤ max 1 i := by
  unfold attenuatedIdx
  have h := coarseWalk_le C ((gainEntry C i).gain - d + coarseMarginDb) i
  split <;> omega

@[simp] theorem agcStep3_idx (t : Tracker) : (agcStep3 t).idx = t.idx := by unfold agcStep3; split <;> rfl
@[simp] theorem agcStep3_hold (t : Tracker) : (agcStep3 t).hold = t.hold - 1 := by
  unfold agcStep3; split
  · rfl
  · omega
@[simp] theorem agcStep3_prevIdx (t : Tracker) : (agcStep3 t).prevIdx = t.prevIdx := by unfold agcStep3; split <;> rfl
@[simp] theorem agcStep3_prevRssi (t : Tracker) : (agcStep3 t).prevRssi = t.prevRssi := by unfold agcStep3; split <;> rfl

@[simp] theorem agcStep5_idx (C : Config) (d : Int) (t : Tracker) :
    (agcStep5 C d t).idx = if d > 0 then attenuatedIdx C d t.idx else t.idx := by
  unfold agcStep5; split
  · split
    · rfl
    · simp_all
  · rfl
@[simp] theorem agcStep5_prevIdx (C : Config) (d : Int) (t : Tracker) : (agcStep5 C d t).prevIdx = t.prevIdx := by
  unfold agcStep5; split <;> try split
  all_goals rfl
@[simp] theorem agcStep5_prevRssi (C : Config) (d : Int) (t : Tracker) : (agcStep5 C d t).prevRssi = t.prevRssi := by
  unfold agcStep5; split <;> try split
  all_goals rfl
/-- Step 5 arms the hold or leaves it. -/
theorem agcStep5_hold (C : Config) (d : Int) (t : Tracker) :
    (agcStep5 C d t).hold = t.hold ∨ (d > 0 ∧ (agcStep5 C d t).hold = holdTicks) := by
  unfold agcStep5; split
  · split
    · exact .inr ⟨by assumption, rfl⟩
    · exact .inl rfl
  · exact .inl rfl

@[simp] theorem agcStep6_idx (d : Int) (t : Tracker) : (agcStep6 d t).idx = t.idx := by unfold agcStep6; split <;> rfl
@[simp] theorem agcStep6_hold (d : Int) (t : Tracker) :
    (agcStep6 d t).hold = if d ≥ hystDb then holdTicks else t.hold := by unfold agcStep6; split <;> rfl
@[simp] theorem agcStep6_prevIdx (d : Int) (t : Tracker) : (agcStep6 d t).prevIdx = t.prevIdx := by
  unfold agcStep6; split <;> rfl
@[simp] theorem agcStep6_prevRssi (d : Int) (t : Tracker) : (agcStep6 d t).prevRssi = t.prevRssi := by
  unfold agcStep6; split <;> rfl

@[simp] theorem agcStep7_idx (t : Tracker) :
    (agcStep7 t).idx = if t.hold = 0 then min (t.idx + 1) (gainTableLen - 1) else t.idx := by
  unfold agcStep7; split <;> rfl
@[simp] theorem agcStep7_hold (t : Tracker) : (agcStep7 t).hold = t.hold := by unfold agcStep7; split <;> rfl
@[simp] theorem agcStep7_prevIdx (t : Tracker) : (agcStep7 t).prevIdx = t.prevIdx := by unfold agcStep7; split <;> rfl
@[simp] theorem agcStep7_prevRssi (t : Tracker) : (agcStep7 t).prevRssi = t.prevRssi := by unfold agcStep7; split <;> rfl

@[simp] theorem agcCompute_prevIdx (C : Config) (new : Nat) (t : Tracker) : (agcCompute C new t).prevIdx = t.prevIdx := by
  simp [agcCompute, agcStore]
@[simp] theorem agcCompute_prevRssi (C : Config) (new : Nat) (t : Tracker) : (agcCompute C new t).prevRssi = new := by
  simp [agcCompute, agcStore]

/-! ## What the parts of a tick leave alone -/

@[simp] theorem agcStep1_pos (v : Vfo) (f : Word32) (s : State) : (agcStep1 v f s).pos = s.pos := by
  unfold agcStep1; split <;> simp
@[simp] theorem agcStep1_txFrame (v : Vfo) (f : Word32) (s : State) : (agcStep1 v f s).txFrame = s.txFrame := by
  unfold agcStep1; split <;> simp
@[simp] theorem agcStep1_rxShift (v : Vfo) (f : Word32) (s : State) : (agcStep1 v f s).rxShift = s.rxShift := by
  unfold agcStep1; split <;> simp
@[simp] theorem agcStep1_settle (v : Vfo) (f : Word32) (s : State) : (agcStep1 v f s).settle = s.settle := by
  unfold agcStep1; split <;> simp
@[simp] theorem agcStep1_cmdLatch (v : Vfo) (f : Word32) (s : State) : (agcStep1 v f s).cmdLatch = s.cmdLatch := by
  unfold agcStep1; split <;> simp
@[simp] theorem agcStep1_agcRaw (v : Vfo) (f : Word32) (s : State) : (agcStep1 v f s).agcRaw = s.agcRaw := by
  unfold agcStep1; split <;> simp
@[simp] theorem agcStep1_pins (v : Vfo) (f : Word32) (s : State) : (agcStep1 v f s).pins = s.pins := by
  unfold agcStep1; split <;> simp
@[simp] theorem agcStep1_rsp (v : Vfo) (f : Word32) (s : State) : (agcStep1 v f s).rsp = s.rsp := by
  unfold agcStep1; split <;> simp
@[simp] theorem agcStep1_devUndefined (v : Vfo) (f : Word32) (s : State) : (agcStep1 v f s).devUndefined = s.devUndefined := by
  unfold agcStep1; split <;> simp
@[simp] theorem agcStep1_port (v : Vfo) (f : Word32) (s : State) : (agcStep1 v f s).port = s.port := by
  unfold agcStep1; split <;> simp
@[simp] theorem agcStep1_hostResult (v : Vfo) (f : Word32) (s : State) : (agcStep1 v f s).hostResult = s.hostResult := by
  unfold agcStep1; split <;> simp
@[simp] theorem agcStep1_refusal (v : Vfo) (f : Word32) (s : State) : (agcStep1 v f s).refusal = s.refusal := by
  unfold agcStep1; split <;> simp
@[simp] theorem agcStep1_gainDiff (v : Vfo) (f : Word32) (s : State) : (agcStep1 v f s).gainDiff = s.gainDiff := by
  unfold agcStep1; split <;> simp

@[simp] theorem agcComputeOn_pos (C : Config) (v : Vfo) (s : State) : (agcComputeOn C v s).pos = s.pos := by
  simp [agcComputeOn]
@[simp] theorem agcComputeOn_txFrame (C : Config) (v : Vfo) (s : State) : (agcComputeOn C v s).txFrame = s.txFrame := by
  simp [agcComputeOn]
@[simp] theorem agcComputeOn_rxShift (C : Config) (v : Vfo) (s : State) : (agcComputeOn C v s).rxShift = s.rxShift := by
  simp [agcComputeOn]
@[simp] theorem agcComputeOn_settle (C : Config) (v : Vfo) (s : State) : (agcComputeOn C v s).settle = s.settle := by
  simp [agcComputeOn]
@[simp] theorem agcComputeOn_cmdLatch (C : Config) (v : Vfo) (s : State) : (agcComputeOn C v s).cmdLatch = s.cmdLatch := by
  simp [agcComputeOn]
@[simp] theorem agcComputeOn_agcRaw (C : Config) (v : Vfo) (s : State) : (agcComputeOn C v s).agcRaw = s.agcRaw := by
  simp [agcComputeOn]
@[simp] theorem agcComputeOn_pins (C : Config) (v : Vfo) (s : State) : (agcComputeOn C v s).pins = s.pins := by
  simp [agcComputeOn]
@[simp] theorem agcComputeOn_rsp (C : Config) (v : Vfo) (s : State) : (agcComputeOn C v s).rsp = s.rsp := by
  simp [agcComputeOn]
@[simp] theorem agcComputeOn_devUndefined (C : Config) (v : Vfo) (s : State) : (agcComputeOn C v s).devUndefined = s.devUndefined := by
  simp [agcComputeOn]
@[simp] theorem agcComputeOn_history (C : Config) (v : Vfo) (s : State) : (agcComputeOn C v s).history = s.history := by
  simp [agcComputeOn]
@[simp] theorem agcComputeOn_port (C : Config) (v : Vfo) (s : State) : (agcComputeOn C v s).port = s.port := by
  simp [agcComputeOn]
@[simp] theorem agcComputeOn_hostResult (C : Config) (v : Vfo) (s : State) : (agcComputeOn C v s).hostResult = s.hostResult := by
  simp [agcComputeOn]
@[simp] theorem agcComputeOn_refusal (C : Config) (v : Vfo) (s : State) : (agcComputeOn C v s).refusal = s.refusal := by
  simp [agcComputeOn]
@[simp] theorem agcComputeOn_gainDiff (C : Config) (v : Vfo) (s : State) : (agcComputeOn C v s).gainDiff = s.gainDiff := by
  simp [agcComputeOn]
@[simp] theorem agcComputeOn_lastFreq (C : Config) (v u : Vfo) (s : State) : (agcComputeOn C v s).lastFreq u = s.lastFreq u := by
  simp [agcComputeOn]

@[simp] theorem agcApply_pos (C : Config) (v : Vfo) (s : State) : (agcApply C v s).pos = s.pos := by
  cases v <;> rfl
@[simp] theorem agcApply_txFrame (C : Config) (v : Vfo) (s : State) : (agcApply C v s).txFrame = s.txFrame := by
  cases v <;> rfl
@[simp] theorem agcApply_rxShift (C : Config) (v : Vfo) (s : State) : (agcApply C v s).rxShift = s.rxShift := by
  cases v <;> rfl
@[simp] theorem agcApply_settle (C : Config) (v : Vfo) (s : State) : (agcApply C v s).settle = s.settle := by
  cases v <;> rfl
@[simp] theorem agcApply_cmdLatch (C : Config) (v : Vfo) (s : State) : (agcApply C v s).cmdLatch = s.cmdLatch := by
  cases v <;> rfl
@[simp] theorem agcApply_agcRaw (C : Config) (v : Vfo) (s : State) : (agcApply C v s).agcRaw = s.agcRaw := by
  cases v <;> rfl
@[simp] theorem agcApply_pins (C : Config) (v : Vfo) (s : State) : (agcApply C v s).pins = s.pins := by
  cases v <;> rfl
@[simp] theorem agcApply_rsp (C : Config) (v : Vfo) (s : State) : (agcApply C v s).rsp = s.rsp := by
  cases v <;> rfl
@[simp] theorem agcApply_devUndefined (C : Config) (v : Vfo) (s : State) : (agcApply C v s).devUndefined = s.devUndefined := by
  cases v <;> rfl
@[simp] theorem agcApply_history (C : Config) (v : Vfo) (s : State) : (agcApply C v s).history = s.history := by
  cases v <;> rfl
@[simp] theorem agcApply_port (C : Config) (v : Vfo) (s : State) : (agcApply C v s).port = s.port := by
  cases v <;> rfl
@[simp] theorem agcApply_hostResult (C : Config) (v : Vfo) (s : State) : (agcApply C v s).hostResult = s.hostResult := by
  cases v <;> rfl
@[simp] theorem agcApply_refusal (C : Config) (v : Vfo) (s : State) : (agcApply C v s).refusal = s.refusal := by
  cases v <;> rfl
@[simp] theorem agcApply_lastFreq (C : Config) (v u : Vfo) (s : State) : (agcApply C v s).lastFreq u = s.lastFreq u := by
  cases v <;> cases u <;> rfl

/-! ## The ranges of a tracker (10 R31, R32) -/

theorem trackerOk_start (C : Config) : TrackerOk C Tracker.start := ⟨by decide, nofun, Nat.two_pow_pos _, by decide⟩

theorem trackerOk_freqReset {C : Config} {t : Tracker} (h : TrackerOk C t) : TrackerOk C (trackerFreqReset t) :=
  ⟨Nat.zero_lt_succ _, h.prevIdx, Nat.two_pow_pos _, Nat.zero_le _⟩

theorem trackerOk_applied {C : Config} {t : Tracker} (h : TrackerOk C t) : TrackerOk C { t with prevIdx := some t.idx } :=
  ⟨h.idx, fun _ e => Option.some.inj e ▸ h.idx, h.prevRssi, h.hold⟩

theorem rssiField_lt (C : Config) (w : Word16) : rssiField C w < 2 ^ C.rssiWidth :=
  Nat.lt_of_le_of_lt Nat.and_le_right (Nat.sub_lt (Nat.two_pow_pos _) Nat.one_pos)

/-- Steps 2 to 7 keep a tracker in range. -/
theorem trackerOk_agcCompute {C : Config} {new : Nat} (hn : new < 2 ^ C.rssiWidth) {t : Tracker} (h : TrackerOk C t) :
    TrackerOk C (agcCompute C new t) where
  idx := by
    have hi := h.idx
    have ha := attenuatedIdx_le C (agcDiff (agcSmooth t new)) t.idx
    simp only [agcCompute, agcStore, agcStep7_idx, agcStep6_idx, agcStep5_idx, agcStep3_idx]
    unfold gainTableLen at *
    split <;> split <;> omega
  prevIdx := by simpa using h.prevIdx
  prevRssi := by simpa using hn
  hold := by
    have hh := h.hold
    simp only [agcCompute, agcStep7_hold, agcStep6_hold]
    split
    · exact Nat.le_refl _
    · rcases agcStep5_hold C (agcDiff (agcSmooth t new)) (agcStep3 (agcStore new t)) with e | e
      · rw [e, agcStep3_hold]; exact Nat.le_trans (Nat.sub_le ..) hh
      · exact e.2.le

theorem trackerOk_setTrk {C : Config} (v : Vfo) {t : Tracker} {s : State} (h : ∀ u, TrackerOk C (s.trk u))
    (ht : TrackerOk C t) (u : Vfo) : TrackerOk C ((s.setTrk v t).trk u) := by
  cases v <;> cases u <;> first | exact ht | exact h .vfo0 | exact h .vfo1

theorem trackerOk_agcStep1 {C : Config} (v : Vfo) (f : Word32) {s : State} (h : ∀ u, TrackerOk C (s.trk u)) (u : Vfo) :
    TrackerOk C ((agcStep1 v f s).trk u) := by
  unfold agcStep1
  split
  · exact h u
  · exact trackerOk_setTrk v (fun u => by simpa using h u) (trackerOk_freqReset (h v)) u

theorem trackerOk_agcApply {C : Config} (v : Vfo) {s : State} (h : ∀ u, TrackerOk C (s.trk u)) (u : Vfo) :
    TrackerOk C ((agcApply C v s).trk u) := by
  have k := trackerOk_setTrk v h (trackerOk_applied (h v)) u
  cases u <;> exact k

end Sys2Proof.Machine
end

