-- ==== Sys2Proof/Laws/PerInstr.lean ====
section
/-! SUPPORT. The encoder against the opcode table, one lemma per constructor: the bits of an encoded instruction agree
with its row's `match` under its row's `mask`, and an instruction has bits exactly if its row has a mask. -/

namespace Sys2Proof.Laws.TableRow

/-- The bits agree with the row's `match` under its `mask`; a row with no mask belongs to an instruction with no bits. -/
def Statement (i : Instr) : Prop :=
  match encode i, tableMaskMatch i with
  | some e, some (mask, pattern) => e.toNat &&& mask = pattern
  | none, none => True
  | _, _ => False

theorem word_masked (c : CmdWord) (mask pattern : Nat) (hm : mask < 2 ^ 64) (hp : pattern < 2 ^ 64)
    (h : c &&& BitVec.ofNat 64 mask = BitVec.ofNat 64 pattern) : c.toNat &&& mask = pattern := by
  have := congrArg BitVec.toNat h
  rwa [BitVec.toNat_and, BitVec.toNat_ofNat, BitVec.toNat_ofNat, Nat.mod_eq_of_lt hm, Nat.mod_eq_of_lt hp] at this

theorem frame_masked (c : Frame) (mask pattern : Nat) (hm : mask < 2 ^ 24) (hp : pattern < 2 ^ 24)
    (h : c &&& BitVec.ofNat 24 mask = BitVec.ofNat 24 pattern) : c.toNat &&& mask = pattern := by
  have := congrArg BitVec.toNat h
  rwa [BitVec.toNat_and, BitVec.toNat_ofNat, BitVec.toNat_ofNat, Nat.mod_eq_of_lt hm, Nat.mod_eq_of_lt hp] at this

theorem busWrite (addr : Addr) (data : Word16) : Statement (.busWrite addr data) := by
  refine word_masked _ _ _ (by decide) (by decide) (BitVec.eq_of_getLsbD_eq ?_)
  intro i hi
  simp only [busWriteWord, BitVec.getLsbD_and, BitVec.getLsbD_append]
  interval_cases i <;> simp

theorem busRead (addr : Addr) : Statement (.busRead addr) := by
  refine word_masked _ _ _ (by decide) (by decide) (BitVec.eq_of_getLsbD_eq ?_)
  intro i hi
  simp only [busReadWord, BitVec.getLsbD_and, BitVec.getLsbD_append]
  interval_cases i <;> simp

theorem agcTick (v : Vfo) (rx : Bool) (freq : Word32) : Statement (.agcTick v rx freq) := by
  refine word_masked _ _ _ (by decide) (by decide) (BitVec.eq_of_getLsbD_eq ?_)
  intro i hi
  simp only [agcTickWord, BitVec.getLsbD_and, BitVec.getLsbD_append]
  interval_cases i <;> simp

theorem frameWrite (addr : Addr) (data : Word16) : Statement (.frameWrite addr data) := by
  refine frame_masked _ _ _ (by decide) (by decide) (BitVec.eq_of_getLsbD_eq ?_)
  intro i hi
  simp only [writeFrame, BitVec.getLsbD_and, BitVec.getLsbD_append]
  interval_cases i <;> simp

theorem frameRead (addr : Addr) (data : Word16) : Statement (.frameRead addr data) := by
  refine frame_masked _ _ _ (by decide) (by decide) (BitVec.eq_of_getLsbD_eq ?_)
  intro i hi
  simp only [readFrame, BitVec.getLsbD_and, BitVec.getLsbD_append]
  interval_cases i <;> simp

theorem setFreq (f : Word32) : Statement (.setFreq f) := trivial
theorem setSq (t : Squelch) : Statement (.setSq t) := trivial
theorem setAgc (en mode : Nat) : Statement (.setAgc en mode) := trivial
theorem setTone (hz : Nat) : Statement (.setTone hz) := trivial
theorem setCtcss (cw : Nat) : Statement (.setCtcss cw) := trivial
theorem setCdcss (code : Nat) : Statement (.setCdcss code) := trivial
theorem getRssi : Statement .getRssi := trivial
theorem setGain (reg : Word16) : Statement (.setGain reg) := trivial
theorem getGainDb : Statement .getGainDb := trivial
theorem fscanStart : Statement .fscanStart := trivial
theorem fscanPoll : Statement .fscanPoll := trivial
theorem fscanWait : Statement .fscanWait := trivial
theorem cscanStart : Statement .cscanStart := trivial
theorem cscanPoll : Statement .cscanPoll := trivial
theorem cscanWait : Statement .cscanWait := trivial

end Sys2Proof.Laws.TableRow
end

