-- ==== Sys2Proof/Machine/Asm.lean ====
section
/-! DEFINITION. The spec's assembler syntax (spec/30_encoding.md R89, R90): one command a line, numbers decimal or 0x hex,
`;` starts a comment, an operand out of range is refused. A line is a list of characters. -/

namespace Sys2Proof.Machine

/-- What the assembler makes of one line: nothing (blank, or only a comment), a refusal, or an instruction. -/
inductive AsmLine where
  | blank
  | refused
  | line (i : Instr)
  deriving DecidableEq, Repr

/-- The value of a digit, `a` to `f` and `A` to `F` included. -/
def digitOf (c : Char) : Option Nat :=
  if 48 ≤ c.toNat ∧ c.toNat ≤ 57 then some (c.toNat - 48)
  else if 97 ≤ c.toNat ∧ c.toNat ≤ 102 then some (c.toNat - 87)
  else if 65 ≤ c.toNat ∧ c.toNat ≤ 70 then some (c.toNat - 55)
  else none

/-- Read digits of a base onto `acc`; `none` at any character that is no digit of the base. -/
def digitsOf (base : Nat) : Nat → List Char → Option Nat
  | acc, [] => some acc
  | acc, c :: rest =>
    match digitOf c with
    | some d => if d < base then digitsOf base (acc * base + d) rest else none
    | none => none

/-- A number: decimal, or hexadecimal after `0x`. -/
def numberOf : List Char → Option Nat
  | [] => none
  | ['0', 'x'] => none
  | '0' :: 'x' :: rest => digitsOf 16 0 rest
  | cs => digitsOf 10 0 cs

/-- Blanks off both ends. -/
def trimBlanks (cs : List Char) : List Char :=
  ((cs.dropWhile fun c => c == ' ' || c == '\t').reverse.dropWhile fun c => c == ' ' || c == '\t').reverse

/-- Split at commas, blanks off each part. -/
def splitCommas : List Char → List (List Char)
  | [] => [[]]
  | c :: rest =>
    if c = ',' then [] :: splitCommas rest
    else match splitCommas rest with
      | p :: ps => (c :: p) :: ps
      | [] => [[c]]

/-- The operands of a line: numbers between commas; no operand where there is only blank. -/
def operandsOf (cs : List Char) : Option (List Nat) :=
  if trimBlanks cs = [] then some [] else (splitCommas cs).mapM fun p => numberOf (trimBlanks p)

/-- A number that fits `w` bits, as a word (30 R89: an operand that does not fit its field is refused). -/
def fitted (w n : Nat) : Option (BitVec w) := if n < 2 ^ w then some (BitVec.ofNat w n) else none

/-- A VFO number, 0 or 1. -/
def vfoOfNat : Nat → Option Vfo
  | 0 => some .vfo0
  | 1 => some .vfo1
  | _ => none

/-- A flag operand, 0 or 1. -/
def flagOfNat : Nat → Option Bool
  | 0 => some false
  | 1 => some true
  | _ => none

/-- The instruction of a mnemonic and its operands. The operands that a pseudo-operation checks itself are passed on as
they stand (42 R171). -/
def instrOf (mnemonic : List Char) (ops : List Nat) : Option Instr :=
  if mnemonic = ['W', 'R'] then
    match ops with
    | [a, d] => do return .busWrite (← fitted 7 a) (← fitted 16 d)
    | _ => none
  else if mnemonic = ['R', 'D'] then
    match ops with
    | [a] => do return .busRead (← fitted 7 a)
    | _ => none
  else if mnemonic = ['T', 'I', 'C', 'K'] then
    match ops with
    | [v, rx, f] => do return .agcTick (← vfoOfNat v) (← flagOfNat rx) (← fitted 32 f)
    | _ => none
  else if mnemonic = ['S', 'E', 'T', 'F', 'R', 'E', 'Q'] then
    match ops with
    | [f] => do return .setFreq (← fitted 32 f)
    | _ => none
  else if mnemonic = ['S', 'E', 'T', 'S', 'Q'] then
    match ops with
    | [ro, rc, no, nc, go, gc] => some (.setSq ⟨ro, rc, no, nc, go, gc⟩)
    | _ => none
  else if mnemonic = ['S', 'E', 'T', 'A', 'G', 'C'] then
    match ops with
    | [en, mode] => some (.setAgc en mode)
    | _ => none
  else if mnemonic = ['S', 'E', 'T', 'T', 'O', 'N', 'E'] then
    match ops with
    | [hz] => some (.setTone hz)
    | _ => none
  else if mnemonic = ['S', 'E', 'T', 'C', 'T', 'C', 'S', 'S'] then
    match ops with
    | [cw] => some (.setCtcss cw)
    | _ => none
  else if mnemonic = ['S', 'E', 'T', 'C', 'D', 'C', 'S', 'S'] then
    match ops with
    | [code] => some (.setCdcss code)
    | _ => none
  else if mnemonic = ['S', 'E', 'T', 'G', 'A', 'I', 'N'] then
    match ops with
    | [reg] => do return .setGain (← fitted 16 reg)
    | _ => none
  else match ops with
    | [] =>
      if mnemonic = ['G', 'E', 'T', 'R', 'S', 'S', 'I'] then some .getRssi
      else if mnemonic = ['G', 'E', 'T', 'G', 'A', 'I', 'N', 'D', 'B'] then some .getGainDb
      else if mnemonic = ['F', 'S', 'C', 'A', 'N', '_', 'S', 'T', 'A', 'R', 'T'] then some .fscanStart
      else if mnemonic = ['F', 'S', 'C', 'A', 'N', '_', 'P', 'O', 'L', 'L'] then some .fscanPoll
      else if mnemonic = ['F', 'S', 'C', 'A', 'N', '_', 'W', 'A', 'I', 'T'] then some .fscanWait
      else if mnemonic = ['C', 'S', 'C', 'A', 'N', '_', 'S', 'T', 'A', 'R', 'T'] then some .cscanStart
      else if mnemonic = ['C', 'S', 'C', 'A', 'N', '_', 'P', 'O', 'L', 'L'] then some .cscanPoll
      else if mnemonic = ['C', 'S', 'C', 'A', 'N', '_', 'W', 'A', 'I', 'T'] then some .cscanWait
      else none
    | _ => none

/-- Assemble one line (30 R89). -/
def assembleLine (cs : List Char) : AsmLine :=
  match trimBlanks (cs.takeWhile fun c => c != ';') with
  | [] => .blank
  | l =>
    match operandsOf (l.dropWhile fun c => c != ' ' && c != '\t') with
    | some ops =>
      match instrOf (l.takeWhile fun c => c != ' ' && c != '\t') ops with
      | some i => .line i
      | none => .refused
    | none => .refused

end Sys2Proof.Machine
end

