-- ==== Sys2Proof/Tests/Slice0.lean ====
section
/-! SUPPORT. Tests. Expected values come from spec/95_test_vectors.md and the examples of the rules cited; the fixture
configuration is that file's own. The witnesses at the end meet the hypotheses of the statements. -/

namespace Sys2Proof.Tests

open Sys2Proof.Machine

/-- An oracle that answers `raw` at the fixture's RSSI register and 0x3456 elsewhere. -/
def answer (raw : Word16) : Addr → List Event → Word16 := fun a _ => if a = 0x67#7 then raw else 0x3456#16

/-- The fixture with that oracle. -/
def fix (raw : Word16) : Config := Config.fixture (answer raw)

/-- The fixture's power-on state. -/
def on : State := State.powerOn (fix 0#16)

/-- The frequency word `F` of 95. -/
def freqF : Word32 := 0x0ABA9500#32

/-- One receiving tick of VFO 0 at frequency `F` for a raw reading. -/
def tick (raw : Word16) (s : State) : State := agcTickOn (fix raw) .vfo0 true freqF s

/-- A state whose VFO 0 stands at index 41 with no hold, at frequency `F` (95 section 2.5). -/
def at41 : State := { on with trk0 := ⟨41, some 41, 0, 0⟩, lastFreq0 := some freqF }

/-! ## WellFormed: one ill-formed term for each check -/

theorem test_wf_squelch : Instr.wf (fix 0#16) (.setSq ⟨256, 0, 0, 0, 0, 0⟩) = false := by decide
theorem test_wf_agc_enable : Instr.wf (fix 0#16) (.setAgc 2 0) = false := by decide
theorem test_wf_agc_mode : Instr.wf (fix 0#16) (.setAgc 1 8) = false := by decide
theorem test_wf_tone : Instr.wf (fix 0#16) (.setTone 6348) = false := by decide
theorem test_wf_ctcss : Instr.wf (fix 0#16) (.setCtcss 31739) = false := by decide
theorem test_wf_cdcss : Instr.wf (fix 0#16) (.setCdcss 0x800000) = false := by decide
theorem test_wf_accepts : Instr.wf (fix 0#16) (.setTone 6347) = true ∧ Instr.wf (fix 0#16) (.setCtcss 31738) = true ∧
    Instr.wf (fix 0#16) (.setCdcss 0x7FFFFF) = true ∧ Instr.wf (fix 0#16) (.setAgc 1 7) = true := by decide

/-! ## Decoding: the words of 95 section 2.1, and the frames of 95 section 2.2 -/

theorem test_decode_write : decodeWord 0x401303BE00000000#64 = .ok (.busWrite 0x13#7 0x03BE#16) := by decide
theorem test_decode_write_edges : decodeWord 0x4000000000000000#64 = .ok (.busWrite 0#7 0#16) ∧
    decodeWord 0x407FFFFF00000000#64 = .ok (.busWrite 0x7F#7 0xFFFF#16) := by decide
theorem test_decode_read : decodeWord 0x8067000000000000#64 = .ok (.busRead 0x67#7) ∧
    decodeWord 0x807F000000000000#64 = .ok (.busRead 0x7F#7) := by decide
theorem test_decode_tick : decodeWord 0xD00000000ABA9500#64 = .ok (.agcTick .vfo0 true freqF) ∧
    decodeWord 0xF00000000ABA9500#64 = .ok (.agcTick .vfo1 true freqF) ∧
    decodeWord 0xC00000000ABA9500#64 = .ok (.agcTick .vfo0 false freqF) ∧
    decodeWord 0xF0000000FFFFFFFF#64 = .ok (.agcTick .vfo1 true 0xFFFFFFFF#32) := by decide
theorem test_decode_reserved_op : decodeWord 0x0000000000000000#64 = .error .reservedOp ∧
    decodeWord 0x3000000000000000#64 = .error .reservedOp ∧ decodeWord 0x0080000000000000#64 = .error .reservedOp := by
  decide
theorem test_decode_reserved_bits : decodeWord 0x4100000000000000#64 = .error .reservedBits ∧
    decodeWord 0x4080000000000000#64 = .error .reservedBits ∧ decodeWord 0xC080000000000000#64 = .error .reservedBits ∧
    decodeWord 0xCF00000000000000#64 = .error .reservedBits ∧ decodeWord 0xFFFFFFFFFFFFFFFF#64 = .error .reservedBits := by
  decide
theorem test_decode_unused_write : decodeWord 0x4000000000000001#64 = .error .unusedFieldNonZero ∧
    decodeWord 0x6000000000000000#64 = .error .unusedFieldNonZero ∧
    decodeWord 0x5000000000000000#64 = .error .unusedFieldNonZero := by decide
theorem test_decode_unused_read : decodeWord 0x8000000100000000#64 = .error .unusedFieldNonZero ∧
    decodeWord 0x8000000000000001#64 = .error .unusedFieldNonZero ∧
    decodeWord 0xA000000000000000#64 = .error .unusedFieldNonZero := by decide
theorem test_decode_unused_tick : decodeWord 0xC001000000000000#64 = .error .unusedFieldNonZero ∧
    decodeWord 0xC000000100000000#64 = .error .unusedFieldNonZero := by decide
theorem test_decode_frames : decodeFrame 0x1303BE#24 = .frameWrite 0x13#7 0x03BE#16 ∧
    decodeFrame 0xE7008E#24 = .frameRead 0x67#7 0x008E#16 ∧ decodeFrame 0x7FFFFF#24 = .frameWrite 0x7F#7 0xFFFF#16 ∧
    decodeFrame 0x800000#24 = .frameRead 0#7 0#16 := by decide
theorem test_decode_table_lengths : decodeTableWord 24 0x1303BE = some (.frameWrite 0x13#7 0x03BE#16) ∧
    decodeTableWord 64 0x4080000000000000 = none ∧ decodeTableWord 16 0x4000 = none := by decide
/-- 30 R89: the words that P3 and P4 of 95 give for their lines. -/
theorem test_encode_lines : busWriteWord 0x38#7 0x9500#16 = 0x4038950000000000#64 ∧
    busReadWord 0x7E#7 = 0x807E000000000000#64 ∧ agcTickWord .vfo1 false 0x0ABA9F10#32 = 0xE00000000ABA9F10#64 := by decide

/-! ## Assembler lines (30 R89, 41 R100, 42 R146) -/

theorem test_assemble : assembleLine "WR 0x13, 0x03BE".toList = .line (.busWrite 0x13#7 0x03BE#16) ∧
    assembleLine "TICK 0, 1, 0x0ABA9500 ; a receiving tick".toList = .line (.agcTick .vfo0 true freqF) ∧
    assembleLine "RD 103".toList = .line (.busRead 0x67#7) ∧ assembleLine "SETAGC 1, 2".toList = .line (.setAgc 1 2) ∧
    assembleLine "; only a comment".toList = .blank := by decide
theorem test_assemble_refuses : assembleLine "WR 0x80, 0".toList = .refused ∧
    assembleLine "WR 0, 65536".toList = .refused ∧ assembleLine "TICK 2, 1, 0".toList = .refused ∧
    assembleLine "RD".toList = .refused := by decide

/-! ## The wire (95 section 2.2) -/

theorem test_wire_write_bits :
    capturedBits (fix 0#16) on.pins (wave (fix 0#16) 0x1303BE#24 on.pins writeSeq)
      = [false, false, false, true, false, false, true, true, false, false, false, false, false, false, true, true,
         true, false, true, true, true, true, true, false] := by decide
theorem test_wire_read_address_byte :
    capturedBits (fix 0#16) on.pins (wave (fix 0#16) 0xE70000#24 on.pins readSeq)
      = [true, true, true, false, false, true, true, true] := by decide
theorem test_wire_read_sample : (runWire (fix 0#16) 0xE70000#24 0x008E#16 (on.pins, 0xFFFF#16)).2 = 0x008E#16 := by
  rw [runWire_read _ (by decide)]
/-- 70 R281: a tick with `rx` = 0 has its response in the cycle after acceptance. -/
theorem test_clock_skipped_tick :
    (offer (fix 0#16) 0xC00000000ABA9500#64 on).rsp = ⟨true, .skipped, 0#16⟩ := by decide
theorem test_clock_accepts_write :
    (offer (fix 0#16) 0x401303BE00000000#64 on).pos = ⟨.write, .pre, 0, .done⟩ ∧
    (offer (fix 0#16) 0x401303BE00000000#64 on).txFrame = 0x1303BE#24 := by decide
/-- 95 section 2.6: `rst` in D_HIGH(12) marks the slave undefined, in PRE it does not. -/
theorem test_reset_marks_undefined :
    (resetBlock (fix 0#16) { on with pos := ⟨.write, .dHigh, 12, .done⟩ }).devUndefined = true ∧
    (resetBlock (fix 0#16) { on with pos := ⟨.write, .pre, 0, .done⟩ }).devUndefined = false := by decide

/-! ## Commands -/

theorem test_busWrite : (busWriteOn (fix 0#16) 0x13#7 0x03BE#16 on).history = [⟨0, .wr, 0x13#7, 0x03BE#16, .host⟩] ∧
    (busWriteOn (fix 0#16) 0x13#7 0x03BE#16 on).rsp = ⟨true, .ok, 0#16⟩ := by
  rw [busWriteOn_eq]; decide
theorem test_busRead : (busReadOn (fix 0x008E#16) 0x67#7 on).rsp = ⟨true, .ok, 0x008E#16⟩ := by
  rw [busReadOn_eq]; decide
theorem test_frameRead_data_is_the_slaves : (frameReadOn (fix 0#16) 0x67#7 0xBEEF#16 on).rxShift = 0xBEEF#16 := by
  unfold frameReadOn; rw [transact_read_eq]; rfl
theorem test_frameWrite : (frameWriteOn (fix 0#16) 0x13#7 0x03BE#16 on).txFrame = 0x1303BE#24 := by decide
theorem test_refused_word : fetch (fix 0#16) { on with port := [.word 0#64] }
    = .now { on with rsp := ⟨true, .refused, 0#16⟩, refusal := some .reservedOp } := by decide

/-! ## AGC_TICK (95 section 2.5) -/

theorem test_tick_at_target : (agcCompute (fix 0#16) 142 Tracker.start) = ⟨0, none, 142, 30⟩ := by decide
theorem test_tick_truncates : (agcCompute (fix 0#16) 129 Tracker.start) = ⟨0, none, 129, 30⟩ ∧
    (agcCompute (fix 0#16) 128 Tracker.start) = ⟨1, none, 128, 0⟩ := by decide
theorem test_tick_coarse : (agcCompute (fix 0#16) 200 at41.trk0).idx = 32 ∧
    (agcCompute (fix 0#16) 162 at41.trk0).idx = 40 ∧ (agcCompute (fix 0#16) 511 at41.trk0).idx = 1 := by decide
theorem test_tick_smoothing : agcSmooth (agcCompute (fix 0#16) 100 Tracker.start) 201 = 150 := by decide
theorem test_tick_gainDiff : (tick 200#16 at41).gainDiff = 14 ∧ (tick 200#16 at41).trk0.prevIdx = some 32 := by decide
theorem test_tick_skipped : (agcTickOn (fix 142#16) .vfo0 false 0x0ABA9F10#32 at41).trk0 = at41.trk0 ∧
    (agcTickOn (fix 142#16) .vfo0 false 0x0ABA9F10#32 at41).rsp.status = .skipped := by decide
theorem test_tick_other_frequency : (agcTickOn (fix 142#16) .vfo0 true 0x0ABA9F10#32 at41).trk0 = ⟨0, some 0, 142, 30⟩ := by
  decide

/-! ## Register-layer operations (95 section 2.4) -/

theorem test_setFreq : (setFreqOn (fix 0#16) freqF on).history
    = [⟨0, .wr, 0x38#7, 0x9500#16, .host⟩, ⟨1, .wr, 0x39#7, 0x0ABA#16, .host⟩] := by decide
theorem test_setSq : (setSqOn (fix 0#16) ⟨1, 2, 3, 4, 5, 6⟩ on).history.map Event.value
    = [0x0102#16, 0x0304#16, 0x0506#16, 0x0708#16] := by decide
theorem test_setAgc : agcCfgWord (fix 0#16) 0x3456#16 1 2 = 0xA456#16 ∧ agcCfgWord (fix 0#16) 0xFFFF#16 0 0 = 0x0FFF#16 := by
  decide
theorem test_setAgc_traffic : (setAgcOn (fix 0#16) 1 2 on).history
    = [⟨0, .rd, 0x7E#7, 0x3456#16, .host⟩, ⟨1, .wr, 0x7E#7, 0xA456#16, .host⟩] := by decide
theorem test_toneWord : toneWord 0 = 0 ∧ toneWord 1 = 10 ∧ toneWord 67 = 692 ∧ toneWord 1000 = 10324 ∧
    toneWord 1750 = 18068 ∧ toneWord 6347 = 65529 ∧ toneWord 6348 = 65540 := by decide
theorem test_setTone_refused : setToneOn (fix 0#16) 6348 on = { on with hostResult := .refused } := by decide
theorem test_ctcssDiv : ctcssDiv 0 = 0 ∧ ctcssDiv 1 = 2 ∧ ctcssDiv 670 = 1383 ∧ ctcssDiv 885 = 1827 ∧
    ctcssDiv 1000 = 2065 ∧ ctcssDiv 2624 = 5418 ∧ ctcssDiv 2625 = 5420 ∧ ctcssDiv 2626 = 5422 ∧ ctcssDiv 6250 = 12906 ∧
    ctcssDiv 31738 = 65535 ∧ ctcssDiv 31739 = 65537 ∧ ctcssFreq 12906 = 6250 := by decide
theorem test_setCtcss_erratum : (setCtcssOn (fix 0#16) 2625 on).history
    = [⟨0, .wr, 0x51#7, 0x0002#16, .host⟩, ⟨1, .wr, 0x07#7, 0x152C#16, .host⟩] := by decide
theorem test_setCdcss : (setCdcssOn (fix 0#16) 0x123456 on).history.map Event.value = [0x0456#16, 0x8123#16] ∧
    (setCdcssOn (fix 0#16) 0x7FFFFF on).history.map Event.value = [0x0FFF#16, 0x87FF#16] := by decide
theorem test_setCdcss_refused : setCdcssOn (fix 0#16) 0x800000 on = { on with hostResult := .refused } := by decide
theorem test_getRssi : (getRssiOn (fix 0xFE8E#16) on).hostResult = .rssi 142 ∧
    (getRssiOn (fix 0xFE00#16) on).hostResult = .rssi 0 := by decide
theorem test_rssiDbm : rssiDbm 142 = -89 ∧ rssiDbm 0 = -160 ∧ rssiDbm 511 = 191 / 2 := by norm_num [rssiDbm]
theorem test_setGain : (setGainOn (fix 0#16) 0x03BE#16 on).history = [⟨0, .wr, 0x13#7, 0x03BE#16, .host⟩] := by decide
theorem test_gainDecode : gainDecode (fix 0#16) 0x03BE#16 = -7 ∧ gainDecode (fix 0#16) 0x0000#16 = -93 ∧
    gainDecode (fix 0#16) 0x03FF#16 = 0 ∧ gainDecode (fix 0#16) 0x02DF#16 = -21 ∧ gainDecode (fix 0#16) 0x00AD#16 = -44 := by
  decide
theorem test_stages_consistent : stagesConsistent (fix 0#16) := by decide
theorem test_getGainDb : (getGainDbOn (fix 0#16) on).hostResult = .gainDb (gainDecode (fix 0#16) 0x3456#16) := by decide
theorem test_fscanStart : (fscanStartOn (fix 0#16) on).history = [⟨0, .wr, 0x32#7, 0x0001#16, .host⟩] := by decide
theorem test_cscanStart : (cscanStartOn (fix 0#16) on).history = [⟨0, .wr, 0x33#7, 0x0002#16, .host⟩] := by decide

/-- A scan oracle for P6 of 95: the first result register is busy until `n` events are in the history. -/
def scanning (n : Nat) : Config :=
  Config.fixture fun a h => if a = 0x0D#7 then (if h.length < n then 0x0000#16 else 0xC000#16) else 0x0123#16

/-- P6: busy, busy, done: RD R1, RD R1, RD R1, RD R2, and the found value. -/
theorem test_fscanWait : (fscanWaitOn (scanning 2) on).history.map Event.addr = [0x0D#7, 0x0D#7, 0x0D#7, 0x0E#7] ∧
    (fscanWaitOn (scanning 2) on).hostResult = .fscan (.found 0x0123) := by decide
/-- P6: three busy polls: TIMEOUT after three reads. -/
theorem test_fscanWait_timeout : (fscanWaitOn (scanning 9) on).history.map Event.addr = [0x0D#7, 0x0D#7, 0x0D#7] ∧
    (fscanWaitOn (scanning 9) on).hostResult = .fscan .timeout := by decide
theorem test_fscanPoll_busy : (fscanPollOn (scanning 9) on).hostResult = .fscan .busy := by decide
theorem test_cscanPoll : (cscanPollOn (fix 0#16) on).history.map Event.addr = [0x68#7, 0x6A#7] ∧
    (cscanPollOn (fix 0#16) on).hostResult = .cscan .notFound := by decide
theorem test_cscanWait : (cscanWaitOn (fix 0#16) on).hostResult = .cscan .timeout := by decide
theorem test_settle_configuration : Config.settleAccepted 48 48 = true ∧ Config.settleAccepted 48 47 = false ∧
    Config.settleAccepted 0 0 = false := by decide

/-! ## The machine's own configuration -/

theorem test_board_decided : Config.board.csActiveLow = true ∧ Config.board.agcWriteOnChange = false ∧
    Config.board.ctcssErratumMode = .configWord := ⟨rfl, rfl, rfl⟩

/-! ## Witnesses: for each statement with hypotheses, a state and operands that meet them together -/

/-- EncodedInstructionDecodesBack, DecodedBitsEncodeBack. -/
theorem witness_encode : encode (.frameRead 0x67#7 0x008E#16) = some (.frame 0xE7008E#24) ∧
    decodeEncoded (.word 0x8067000000000000#64) = some (.busRead 0x67#7) := by decide

/-- The fixture on the simulator's register file of 20 R76, with the RSSI and scan registers scripted. -/
def simFix : Config := Config.fixture (simOracle (fun _ => 0#16)
  (fun a => [0x67#7, 0x0D#7, 0x0E#7, 0x68#7, 0x69#7, 0x6A#7].contains a) (fun _ _ => 7#16))

/-- SimulatorReadsWhatWasWritten, at a register and another. -/
theorem witness_simulator : ∃ init vol script, simFix.oracle = simOracle init vol script ∧ vol 0x13#7 = false ∧
    vol 0x7F#7 = false ∧ (0x7F#7 : Addr) ≠ 0x13#7 ∧ simVolatileOk simFix vol = true :=
  ⟨_, _, _, rfl, by decide, by decide, by decide, by decide⟩

/-- The three latency statements, SkippedTickChangesNothing. -/
theorem witness_idle_start : on.pos = Pos.start ∧ on.settle = 0 ∧ State.reset.pos = Pos.start ∧ State.reset.settle = 0 :=
  ⟨rfl, rfl, rfl, rfl⟩

/-- A fixture block that has just accepted a read. -/
def busy : State := offer (fix 0#16) 0x8067000000000000#64 on

/-- The block in a phase of a read, in its last cycle, and the next state for a level of the data line. -/
def sampled (ph : Phase) (b : Nat) (line : Bool) (rx : Word16) : Word16 :=
  (cycle (fix 0#16) ⟨false, false, 0#64, line⟩
    { on with txFrame := 0xE70000#24, pos := ⟨.read, ph, b, .done⟩, rxShift := rx }).rxShift

/-- 41 R125, ReadSamplesEachBitAtItsPhase: the first, second and last sample, a 0 as well as a 1, and phases that take
none. -/
theorem witness_sampling : sampled .ta 7 true 0#16 = 0x8000#16 ∧ sampled .rLow 8 true 0x8000#16 = 0xC000#16 ∧
    sampled .rLow 22 true 0#16 = 0x0001#16 ∧ sampled .rLow 22 false 0xFFFF#16 = 0xFFFE#16 ∧
    sampled .rLow 23 true 0#16 = 0#16 ∧ sampled .rHigh 8 true 0#16 = 0#16 ∧ sampled .gap 7 true 0#16 = 0#16 ∧
    (cycle (fix 0#16) ⟨false, false, 0#64, false⟩
      { on with txFrame := 0xE70000#24, pos := ⟨.read, .post, 23, .done⟩, rxShift := 0x008E#16 }).rsp.rdata = 0x008E#16 := by
  decide

/-- RunsThePhases, in the three latency statements: the first and last phase of either sequence, and a phase has a cycle. -/
theorem witness_phases : (frameSeq busy.txFrame)[0]? = some (.pre, 0) ∧ (frameSeq busy.txFrame)[60]? = some (.post, 23) ∧
    (frameSeq 0x1303BE#24)[75]? = some (.post, 23) ∧ 0 < (fix 0#16).settleCycles := by decide

/-- OfferedCommandIsHeldWhileBusy: busy, in reset, and ready, with an offer, without, and with no move pending. -/
theorem witness_held : busy.idle = false ∧ on.cmdReady false = true ∧ on.cmdReady true = false ∧ on.idle = true ∧
    on.port = [] := by decide

/-- 10 R23: the pulse of a response lasts one cycle. -/
theorem test_pulse_ends : (cycle (fix 0#16) ⟨false, false, 0#64, false⟩
    (offer (fix 0#16) 0xC00000000ABA9500#64 on)).rsp.valid = false := by decide

/-- EveryCommandEndsInIdle, CycleKeepsTheStateLegal: a busy legal state. -/
theorem witness_legal_busy : Inv (fix 0#16) busy where
  idle := by decide
  slot := by decide
  command := by decide
  compute := by decide
  settle := by decide
  pins := by decide
  trk := fun v => by
    cases v
    · exact ⟨by decide, (show ∀ i, (none : Option Nat) = some i → _ from nofun), by decide, by decide⟩
    · exact ⟨by decide, (show ∀ i, (none : Option Nat) = some i → _ from nofun), by decide, by decide⟩
  gainDiff := by decide
  history := by decide

/-- ResetCycleFromAnyState, UndefinedMarkIsSetOnlyByResetAndSticky: a reset that sets the mark, and the mark kept. -/
theorem witness_reset :
    (cycle (fix 0#16) ⟨true, false, 0#64, false⟩ { busy with pos := ⟨.read, .ta, 7, .done⟩ }).devUndefined = true ∧
    (cycle (fix 0#16) ⟨false, false, 0#64, false⟩ { on with devUndefined := true }).devUndefined = true := by decide

/-- StepRunsTheDecodedInstruction: a word, a line and a frame as the next move, and an illegal word. -/
theorem witness_moves : State.reset.idle = true ∧ decodeWord 0x401303BE00000000#64 = .ok (.busWrite 0x13#7 0x03BE#16) ∧
    decodeFrame 0x1303BE#24 = .frameWrite 0x13#7 0x03BE#16 ∧
    ({ State.reset with port := [.word 0x401303BE00000000#64] } : State).port = .word 0x401303BE00000000#64 :: [] ∧
    ({ State.reset with port := [.line .getRssi, .rst] } : State).port = .line .getRssi :: [.rst] ∧
    ({ State.reset with port := [.frame 0x1303BE#24] } : State).port = .frame 0x1303BE#24 :: [] ∧
    ({ State.reset with port := [.word 0#64] } : State).port = .word 0#64 :: [] ∧ decodeWord 0#64 = .error .reservedOp :=
  ⟨rfl, by decide, by decide, rfl, rfl, rfl, rfl, by decide⟩

/-- StepRunsThePlacedInstruction, at both lengths. -/
theorem witness_placed : decodeTableWord 64 0xC000000000000000 = some (.agcTick .vfo0 false 0#32) ∧
    decodeTableWord 24 0x800000 = some (.frameRead 0#7 0#16) := by decide

/-- IllegalWordIsRefusedPrecisely, for each reason. -/
theorem witness_illegal : decodeWord 0#64 = .error .reservedOp ∧ decodeWord 0x4080000000000000#64 = .error .reservedBits ∧
    decodeWord 0x4000000000000001#64 = .error .unusedFieldNonZero ∧ on.cmdReady false = true ∧
    (⟨false, true, 0#64, false⟩ : PortIn).cmdValid = true := by decide

/-- BusyStepHoldsTheCommand: a word held, and a reset that is not. -/
theorem witness_busy_moves : ({ busy with port := [.word 0#64] } : State).idle = false ∧
    ({ busy with port := [.word 0#64] } : State).port.head? ≠ some .rst ∧
    ({ busy with port := [.rst] } : State).port = .rst :: [] := by decide

/-- StepKeepsTheStateLegal, HistoryOnlyGrows: a legal state of the machine with a move to make, and its next state. -/
theorem witness_legal_step : Inv Config.board { State.reset with port := [.line .getGainDb] } ∧
    ∃ t, step { State.reset with port := [.line .getGainDb] } = .next t :=
  ⟨{ idle := fun _ => ⟨rfl, rfl⟩
     slot := fun h => absurd rfl h
     command := fun h => absurd rfl h
     compute := fun h => by cases h
     settle := Config.board.settle_pos
     pins := rfl
     trk := fun v => by
       cases v <;> exact ⟨by decide, nofun, Nat.two_pow_pos _, by decide⟩
     gainDiff := by decide
     history := rfl }, _, rfl⟩

/-- OnlyTheOwnTickMutatesATracker: a tick that changes its frequency, and one that changes the offset. -/
theorem witness_tick_mutates : ∃ t, exec (.agcTick .vfo0 true freqF) State.reset = .next t ∧
    t.lastFreq .vfo0 ≠ State.reset.lastFreq .vfo0 := by
  refine ⟨_, rfl, ?_⟩
  have h : (agcTickOn Config.board .vfo0 true freqF State.reset).lastFreq .vfo0 = some freqF := by
    simp [agcTickOn, agcRun, agcStep8, agcComputeOn, agcApply, regWrite, agcReadRssi, regRead, agcWrites,
      Config.board, State.lastFreq, agcStep1, State.setLastFreq, State.setTrk, transact, State.latch, State.respond,
      State.reset, State.powerOn]
  rw [h]
  exact fun h => by cases h

/-- ReceivingTickCompletes: the two VFOs differ, in either order. -/
theorem witness_two_vfos : Vfo.vfo1 ≠ .vfo0 ∧ Vfo.vfo0 ≠ .vfo1 := by decide

/-- FrequencyChangeForgetsTheTracker, ReadoutsShowTheAppliedGain: a state with another frequency, and its tick. -/
theorem witness_frequency_change : State.reset.lastFreq .vfo1 ≠ some freqF ∧
    ∃ t, exec (.agcTick .vfo1 true freqF) State.reset = .next t := ⟨nofun, _, rfl⟩

/-- DiffBoundaries: readings at each bound, and the ends of the range. -/
theorem witness_diff_bounds : agcDiff 143 = 0 ∧ agcDiff 144 = 1 ∧ agcDiff 161 = 9 ∧ agcDiff 162 = 10 ∧ agcDiff 129 = -6 ∧
    agcDiff 128 = -7 ∧ agcDiff 0 = -71 ∧ agcDiff 65535 = 32696 ∧ agcDiff 142 = 0 ∧
    agcSmooth ⟨0, none, 65535, 0⟩ 65535 = 65535 ∧ agcSmooth ⟨0, none, 0, 0⟩ 65535 = 65535 := by decide

/-- CoarseWalkFindsTheLargestEntry, AttenuationMovesDownTheLadder: the walk that stops at once, at 1 and in between; the
branches at `d` = 1, 9, 10 and 32696 and the indices 0, 1, 2 and 41. -/
theorem witness_attenuation : coarseWalk (fix 0#16) 0 41 = 41 ∧ coarseWalk (fix 0#16) (-200) 41 = 1 ∧
    coarseWalk (fix 0#16) (-21) 41 = 32 ∧ coarseWalk (fix 0#16) (-200) 1 = 1 ∧
    (agcStep5 (fix 0#16) 1 ⟨0, none, 0, 0⟩).idx = 1 ∧ (agcStep5 (fix 0#16) 10 ⟨0, none, 0, 0⟩).idx = 1 ∧
    (agcStep5 (fix 0#16) 9 ⟨2, none, 0, 0⟩).idx = 1 ∧ (agcStep5 (fix 0#16) 9 ⟨1, none, 0, 0⟩).idx = 1 ∧
    (agcStep5 (fix 0#16) 10 ⟨41, none, 0, 0⟩).idx = 40 ∧ (agcStep5 (fix 0#16) 29 ⟨41, none, 0, 0⟩).idx = 32 ∧ (agcStep5 (fix 0#16) 32696 ⟨41, none, 0, 0⟩).idx = 1 := by decide

/-- HoldAndRelaxationOfATick, IndexZeroPersistence: the band's ends, above it, and below it with hold 0, 1 and 2. -/
theorem witness_hold : (agcCompute (fix 0#16) 129 ⟨5, none, 0, 7⟩) = ⟨5, none, 129, 30⟩ ∧
    (agcCompute (fix 0#16) 143 ⟨5, none, 0, 7⟩) = ⟨5, none, 143, 30⟩ ∧
    (agcCompute (fix 0#16) 144 ⟨5, none, 0, 7⟩) = ⟨4, none, 144, 30⟩ ∧
    (agcCompute (fix 0#16) 128 ⟨0, none, 0, 0⟩) = ⟨1, none, 128, 0⟩ ∧
    (agcCompute (fix 0#16) 128 ⟨0, none, 0, 1⟩) = ⟨1, none, 128, 0⟩ ∧
    (agcCompute (fix 0#16) 128 ⟨0, none, 0, 2⟩) = ⟨0, none, 128, 1⟩ := by decide

set_option maxRecDepth 4000 in
/-- HoldDelaysRelaxationThirtyTicks: twenty-nine weak readings keep the index, the thirtieth raises it (95 section 2.5). -/
theorem witness_hold_delay : (List.replicate 29 0).length = 29 ∧
    (runTicks (fix 0#16) (List.replicate 29 0) ⟨1, some 1, 150, 30⟩).idx = 1 ∧
    (runTicks (fix 0#16) (List.replicate 29 0 ++ [0]) ⟨1, some 1, 150, 30⟩).idx = 2 := by decide

/-- ConstantReadingConverges: readings above, in and below the band, from a tracker that has none and one that has it. -/
theorem witness_constant_reading : 0 < agcDiff 144 ∧ agcDiff 162 ≥ 10 ∧ (-6 ≤ agcDiff 129 ∧ agcDiff 129 ≤ 0) ∧
    agcDiff 128 < -6 ∧ (⟨41, some 41, 0, 30⟩ : Tracker).idx < gainTableLen ∧
    (agcCompute (fix 0#16) 144 ⟨1, none, 144, 30⟩).idx = 1 ∧ (agcCompute (fix 0#16) 144 ⟨0, none, 0, 0⟩).idx = 1 ∧
    (runTicks (fix 0#16) (List.replicate 2 144) ⟨3, none, 144, 30⟩).idx = 1 ∧
    (runTicks (fix 0#16) (List.replicate 2 128) ⟨3, none, 128, 1⟩).idx = 5 ∧
    (runTicks (fix 0#16) (List.replicate 2 128) ⟨40, none, 128, 0⟩).idx = 41 := by decide

/-- LadderIsStrictlyAscending, at both ends. -/
theorem witness_ladder : (gainEntry (fix 0#16) 1).gain < (gainEntry (fix 0#16) 2).gain ∧
    (gainEntry (fix 0#16) 40).gain < (gainEntry (fix 0#16) 41).gain ∧ 41 < gainTableLen := by decide

/-- SetAgcReplacesTwoFields, SetToneWritesTheRoundedWord, SetCtcssWritesConfigThenDivisor, SetCdcssWritesTheTwoHalves,
OutOfRangeOperandIsRefusedByTheHost: operands at the ends of their ranges, and just past them. -/
theorem witness_operands : Instr.wf Config.board (.setAgc 1 7) = true ∧ Instr.wf Config.board (.setAgc 1 8) = false ∧
    Instr.wf Config.board (.setTone 6347) = true ∧ Instr.wf Config.board (.setTone 6348) = false ∧
    Instr.wf Config.board (.setCtcss 31738) = true ∧ Instr.wf Config.board (.setCtcss 31739) = false ∧
    Instr.wf Config.board (.setCdcss 8388607) = true ∧ Instr.wf Config.board (.setCdcss 8388608) = false ∧
    isPseudo (.setTone 6347) = true := by decide

/-- RssiAndGainAccessComplete: the gain register answers with entry 28's word, and with entry 0's. -/
theorem witness_gain_word : (Config.fixture fun _ _ => 0x00DF#16).oracle 0x13#7 [] = (gainEntry (fix 0#16) 28).reg ∧
    (getGainDbOn (Config.fixture fun _ _ => 0x00DF#16) on).hostResult = .gainDb (-30) ∧
    (getGainDbOn (Config.fixture fun _ _ => 0x03BE#16) on).hostResult = .gainDb (-7) := by decide

/-- ReadoutsShowTheAppliedGain: no index applied yet, and one. -/
theorem witness_readouts : (on.trk .vfo0).prevIdx = none ∧ (at41.trk .vfo0).prevIdx = some 41 ∧
    on.appliedRegOut (fix 0#16) .vfo0 = 0#16 ∧ at41.appliedRegOut (fix 0#16) .vfo0 = 0x03FF#16 := by decide

/-! ## Host duties (70 R279) -/

/-- A cycle with no input but an offered word. -/
def offering (c : CmdWord) : PortIn := ⟨false, true, c, false⟩

/-- A cycle with no input. -/
def quiet : PortIn := ⟨false, false, 0#64, false⟩

/-- SparedTransactionsLeaveTheSlaveDefined, from the legal busy state: cycles with no reset are spared, a reset in the
transaction is not, and one in IDLE is. -/
theorem witness_spared : busy.DeviceDefined ∧ sparesTransactions (fix 0#16) [quiet, quiet] busy = true ∧
    sparesTransactions (fix 0#16) [quiet, { quiet with rst := true }] busy = false ∧
    sparesTransactions (fix 0#16) [{ quiet with rst := true }] on = true :=
  ⟨rfl, by decide, by decide, by decide⟩

/-- HeldOfferIsAcceptedUnchanged: an offer held while busy, one accepted at once, and one that is dropped. -/
theorem witness_held_offer : holdsOffers (fix 0#16) [offering 0#64, offering 0#64] busy = true ∧
    busy.cmdReady false = false ∧ holdsOffers (fix 0#16) [offering 0#64, quiet] on = true ∧ on.cmdReady false = true ∧
    holdsOffers (fix 0#16) [offering 0#64, quiet] busy = false ∧
    holdsOffers (fix 0#16) [offering 0#64, offering 1#64] busy = false := by decide

/-- A tick in which VFO 0 receives at `F` and VFO 1, at another frequency, does not. -/
def tickContext : TickContext := ⟨⟨true, true, freqF⟩, ⟨true, false, 0x0ABA9F10#32⟩⟩

/-- The moves of a dutiful host in it: a retune of VFO 0 and its tick, then a retune of VFO 1, a gain write that is part of
no retune, and the other tick. -/
def dutiful : List HostMove :=
  [⟨.line (.setFreq freqF), [.vfo0]⟩, ⟨.word 0xD00000000ABA9500#64, []⟩, ⟨.line (.setFreq 0x0ABA9F10#32), [.vfo1]⟩,
    ⟨.line (.setGain 0x03BE#16), []⟩, ⟨.word 0xE00000000ABA9F10#64, []⟩]

/-- The same moves as the machine sees them. -/
def dutifulMoves : List Request := dutiful.map HostMove.request

/-- DutifulTickServesEachReceivingVfo. -/
theorem witness_dutiful : ticksOnce tickContext dutifulMoves = true ∧ ticksTruly tickContext dutifulMoves = true ∧
    Request.rst ∉ dutifulMoves ∧ (tickContext.vfo .vfo0).live = true ∧ (tickContext.vfo .vfo0).receiving = true ∧
    State.reset.port = [] := ⟨by decide, by decide, by decide, rfl, rfl, rfl⟩

theorem test_keeps_duties : KeepsTickDuties (fix 0#16) tickContext dutiful where
  meant := by decide
  scans := by decide
  once := by decide
  truly := by decide
  period := by
    have h : (dutiful.map fun m => m.request.cycles (fix 0#16)).sum = 525 := by decide
    rw [h]
    norm_num [fix, Config.fixture, tickPeriod]

/-- 70 R273: a retune of a VFO after its own tick breaks the duty, a SETFREQ is some VFO's retune, and a read is none;
R275 and R276: so do a second tick and an untrue one. -/
theorem test_breaks_duties : scansFirst (dutiful ++ [⟨.line (.setSq ⟨0, 0, 0, 0, 0, 0⟩), [.vfo0]⟩]) = false ∧
    (⟨.line (.setFreq 0#32), []⟩ : HostMove).meant (fix 0#16) = false ∧
    (⟨.line .getRssi, [.vfo0]⟩ : HostMove).meant (fix 0#16) = false ∧
    ticksOnce tickContext (dutifulMoves ++ dutifulMoves) = false ∧
    ticksTruly tickContext [.word 0xD00000000ABA9501#64] = false := by decide

/-- 00 R7: `SETTLE_CYCLES` rounds up. -/
theorem test_settle_cycles : settleCyclesOf 1 48 = 48 ∧ settleCyclesOf (101 / 100) 48 = 49 := by
  constructor
  · norm_num [settleCyclesOf]
  · rw [settleCyclesOf, Nat.ceil_eq_iff (by norm_num)]
    norm_num

end Sys2Proof.Tests
end

section
/-! SUPPORT, and the proof of O22. What each part of a clock cycle does to the mark `devUndefined` (10 R35): every part but
reset keeps it, so one equation says the mark after a cycle, whatever the inputs and the state. -/

namespace Sys2Proof.Machine

/-! ## The parts of a cycle keep the mark -/

@[simp] theorem enterSlot_devUndefined (C : Config) (ph : Phase) (b : Nat) (s : State) :
    (enterSlot C ph b s).devUndefined = s.devUndefined := rfl

@[simp] theorem startFrame_devUndefined (C : Config) (f : Frame) (s : State) :
    (startFrame C f s).devUndefined = s.devUndefined := rfl

/-- Only the three command forms do anything; an AGC_TICK of a receiving VFO goes through step 1. -/
@[simp] theorem startCommand_devUndefined (C : Config) (i : Instr) (s : State) :
    (startCommand C i s).devUndefined = s.devUndefined := by
  cases i with
  | agcTick v rx freq => cases rx <;> simp [startCommand]
  | _ => rfl

@[simp] theorem acceptWord_devUndefined (C : Config) (c : CmdWord) (s : State) :
    (acceptWord C c s).devUndefined = s.devUndefined := by
  unfold acceptWord
  split
  · simp
  · simp

/-- The record of the event keeps the mark, and so does each way a transaction's command goes on. -/
@[simp] theorem endTransaction_devUndefined (C : Config) (s : State) :
    (endTransaction C s).devUndefined = s.devUndefined := by
  cases hop : s.pos.op with
  | agcTick => cases hstep : s.pos.agcStep <;> simp [endTransaction, hop, hstep]
  | _ => simp [endTransaction, hop]

@[simp] theorem computeCycle_devUndefined (C : Config) (s : State) :
    (computeCycle C s).devUndefined = s.devUndefined := by
  unfold computeCycle
  dsimp only
  split
  · simp
  · simp

@[simp] theorem phaseCycle_devUndefined (C : Config) (line : Bool) (s : State) :
    (phaseCycle C line s).devUndefined = s.devUndefined := by
  unfold phaseCycle
  split
  · rfl
  · dsimp only
    split <;> simp

/-! ## The mark after a cycle -/

/-- A cycle with `rst` = 0 keeps the mark, in IDLE and in a command (70 R262). -/
theorem cycle_devUndefined_of_no_reset (C : Config) {inp : PortIn} (h : inp.rst = false) (s : State) :
    (cycle C inp s).devUndefined = s.devUndefined := by
  rw [cycle, h, if_neg Bool.false_ne_true]
  split
  · split <;> simp
  · split <;> simp

/-- The mark after any cycle: what it was, or a reset with `CS` asserted (10 R35, 70 R262). -/
@[simp] theorem cycle_devUndefined (C : Config) (inp : PortIn) (s : State) :
    (cycle C inp s).devUndefined = (s.devUndefined || (inp.rst && csAsserted s.pos.phase)) := by
  cases h : inp.rst with
  | true => simp [cycle, h]
  | false => simp [cycle_devUndefined_of_no_reset C h]

/-- Settles O22: the three clauses are read off `cycle_devUndefined`. -/
theorem undefinedMarkIsSetOnlyByResetAndSticky : Obligations.UndefinedMarkIsSetOnlyByResetAndSticky := by
  intro C inp s
  rw [cycle_devUndefined]
  refine ⟨fun hset => ?_, fun hafter => ?_, fun hrst hcs => ?_⟩
  · rw [hset, Bool.true_or]
  · simpa using hafter
  · rw [hrst, hcs, Bool.and_true, Bool.or_true]

end Sys2Proof.Machine
end

section
/-! SUPPORT, and the proofs of O45 and O50. What one BUS_WRITE leaves in the history, the response and `rxShift`; the halves of
a 32-bit word as numbers; and the rounding error of the CTCSS divisor (42 R140, R153, R154). -/

namespace Sys2Proof.Machine

/-! ## The fields of the state after a BUS_WRITE -/

@[simp] theorem busWriteOn_history (C : Config) (a : Addr) (d : Word16) (s : State) :
    (busWriteOn C a d s).history = s.history ++ [⟨s.history.length, .wr, a, d, .host⟩] := by
  rw [busWriteOn_eq]

@[simp] theorem busWriteOn_rsp (C : Config) (a : Addr) (d : Word16) (s : State) :
    (busWriteOn C a d s).rsp = ⟨true, .ok, 0#16⟩ := by
  rw [busWriteOn_eq]

@[simp] theorem busWriteOn_rxShift (C : Config) (a : Addr) (d : Word16) (s : State) :
    (busWriteOn C a d s).rxShift = s.rxShift := by
  rw [busWriteOn_eq]

/-! ## SETFREQ -/

/-- Bits `f[15:0]` are the remainder (42 R140). -/
theorem bitsOf_low_half (f : Word32) : bitsOf f 0 16 = BitVec.ofNat 16 (f.toNat % 65536) := by
  apply BitVec.eq_of_toNat_eq
  simp [bitsOf]

/-- Bits `f[31:16]` are the quotient (42 R140). -/
theorem bitsOf_high_half (f : Word32) : bitsOf f 16 16 = BitVec.ofNat 16 (f.toNat / 65536) := by
  apply BitVec.eq_of_toNat_eq
  simp [bitsOf, Nat.shiftRight_eq_div_pow]

theorem setFreqOn_history (C : Config) (f : Word32) (s : State) :
    (setFreqOn C f s).history = s.history ++
      [⟨s.history.length, .wr, C.freqLoReg, BitVec.ofNat 16 (f.toNat % 65536), .host⟩,
       ⟨s.history.length + 1, .wr, C.freqHiReg, BitVec.ofNat 16 (f.toNat / 65536), .host⟩] := by
  simp [setFreqOn, bitsOf_low_half, bitsOf_high_half]

theorem sameAgc_setFreqOn (C : Config) (f : Word32) (s : State) : SameAgc s (setFreqOn C f s) := by
  have low := sameAgc_busWriteOn C C.freqLoReg (bitsOf f 0 16) s
  have high := sameAgc_busWriteOn C C.freqHiReg (bitsOf f 16 16) (busWriteOn C C.freqLoReg (bitsOf f 0 16) s)
  exact sameAgc_trans (sameAgc_trans low high) (sameAgc_give .done _)

/-- Settles O45: SETFREQ is two BUS_WRITEs, so each clause is the field rule of BUS_WRITE used twice. -/
theorem setFreqCompletes : Obligations.SetFreqCompletes := by
  intro f s
  refine ⟨setFreqOn Config.board f s, rfl, setFreqOn_history .., ?rsp, ?rxShift, sameAgc_setFreqOn ..⟩
  case rsp => simp [setFreqOn]
  case rxShift => simp [setFreqOn]

/-! ## The CTCSS divisor -/

/-- The divisor is the nearest integer to `cw × 206488 / 100000`, a half rounded up (42 R153). -/
theorem ctcssDiv_bounds (cw : Nat) :
    ctcssDiv cw * 100000 ≤ cw * 206488 + 50000 ∧ cw * 206488 + 50000 < (ctcssDiv cw + 1) * 100000 :=
  ⟨Nat.div_mul_le_self .., Nat.lt_mul_of_div_lt (Nat.lt_succ_self _) (by decide)⟩

/-- Settles O50: by `ctcssDiv_bounds`, `d × 100000` is within 50000 of `cw × 206488`, and the inverse rounds a distance
below 103244 away (42 R154). -/
theorem ctcssRoundTripIsExact : Obligations.CtcssRoundTripIsExact := by
  intro cw
  obtain ⟨above, below⟩ := ctcssDiv_bounds cw
  rw [ctcssFreq]
  omega

end Sys2Proof.Machine
end

section
/-! SUPPORT, and the proofs of O37, O40 and O43. The distance from the target on each side of it, the hold and the index
after the COMPUTE work of a tick by the band the distance is in, and a run of ticks with one reading (43 R192 to R197,
R204, R206). -/

namespace Sys2Proof.Machine

/-! ## The distance from the target -/

/-- At and above the target the quotient is the floor (43 R194). -/
theorem agcDiff_of_ge_target {rssi : Nat} (h : 142 ≤ rssi) : agcDiff rssi = ((rssi : Int) - 142) / 2 := by
  rw [agcDiff, show targetRaw = 142 from rfl, Int.tdiv_eq_ediv_of_nonneg (by omega)]

/-- At and below the target the floor is that of the distance's absolute value (43 R194). -/
theorem agcDiff_of_le_target {rssi : Nat} (h : rssi ≤ 142) : agcDiff rssi = -((142 - (rssi : Int)) / 2) := by
  rw [agcDiff, show targetRaw = 142 from rfl, ← neg_sub, Int.neg_tdiv, Int.tdiv_eq_ediv_of_nonneg (by omega)]

theorem agcDiff_bounds (rssi : Nat) :
    (agcDiff rssi > 0 ↔ rssi ≥ 144) ∧ (agcDiff rssi ≥ 10 ↔ rssi ≥ 162) ∧ (agcDiff rssi ≥ -6 ↔ rssi ≥ 129) := by
  rcases Nat.le_total 142 rssi with above | below
  · rw [agcDiff_of_ge_target above]
    omega
  · rw [agcDiff_of_le_target below]
    omega

theorem agcDiff_range {rssi : Nat} (h : rssi ≤ 65535) : -71 ≤ agcDiff rssi ∧ agcDiff rssi ≤ 32696 := by
  rcases Nat.le_total 142 rssi with above | below
  · rw [agcDiff_of_ge_target above]
    omega
  · rw [agcDiff_of_le_target below]
    omega

/-! ## The smoothed reading -/

theorem agcSmooth_of_no_reading {t : Tracker} (h : t.prevRssi = 0) (new : Nat) : agcSmooth t new = new :=
  if_neg (by omega)

theorem agcSmooth_of_reading {t : Tracker} (h : 0 < t.prevRssi) (new : Nat) :
    agcSmooth t new = (t.prevRssi + new) / 2 :=
  if_pos h

/-- The mean of a reading with itself is that reading. -/
theorem agcSmooth_same {t : Tracker} {x : Nat} (h : t.prevRssi = x) : agcSmooth t x = x := by
  rcases Nat.eq_zero_or_pos t.prevRssi with absent | present
  · exact agcSmooth_of_no_reading absent x
  · rw [agcSmooth_of_reading present]
    omega

theorem agcSmooth_le {t : Tracker} {new bound : Nat} (hprev : t.prevRssi ≤ bound) (hnew : new ≤ bound) :
    agcSmooth t new ≤ bound := by
  rcases Nat.eq_zero_or_pos t.prevRssi with absent | present
  · rwa [agcSmooth_of_no_reading absent]
  · rw [agcSmooth_of_reading present]
    omega

/-- Settles O37: the quotient on each side of the target gives the bounds, and a mean of two readings is within their
range. -/
theorem diffBoundaries : Obligations.DiffBoundaries := by
  refine ⟨fun rssi => ?_, fun t new hprev hnew => ?_⟩
  · obtain ⟨positive, coarse, band⟩ := agcDiff_bounds rssi
    exact ⟨positive, coarse, band, agcDiff_of_ge_target, agcDiff_of_le_target⟩
  · have hle := agcSmooth_le hprev hnew
    obtain ⟨lower, upper⟩ := agcDiff_range hle
    exact ⟨hle, lower, upper, (agcSmooth_of_no_reading · new), (agcSmooth_of_reading · new)⟩

/-! ## The hold and the index after a tick's steps -/

theorem agcStep5_of_nonpos (C : Config) {d : Int} (h : d ≤ 0) (t : Tracker) : agcStep5 C d t = t :=
  if_neg (Int.not_lt.mpr h)

/-- From the band's lower end up, step 6 sets the hold, whatever step 5 left; below, step 5 does not run (43 R193, R196). -/
theorem agcCompute_hold (C : Config) (new : Nat) (t : Tracker) :
    (agcCompute C new t).hold = if -6 ≤ agcDiff (agcSmooth t new) then 30 else t.hold - 1 := by
  rw [agcCompute, agcStep7_hold, agcStep6_hold]
  by_cases band : -6 ≤ agcDiff (agcSmooth t new)
  · rw [if_pos band]
    exact if_pos band
  · rw [if_neg band, agcStep5_of_nonpos C (by omega), agcStep3_hold]
    exact if_neg band

theorem agcCompute_hold_of_below_band (C : Config) {new : Nat} {t : Tracker} (h : agcDiff (agcSmooth t new) < -6) :
    (agcCompute C new t).hold = t.hold - 1 := by
  rw [agcCompute_hold, if_neg (Int.not_le.mpr h)]

/-- Step 7 sees the hold a tick leaves, and steps 6 and 7 are all that follows step 5's index (43 R195, R197). -/
theorem agcCompute_idx (C : Config) (new : Nat) (t : Tracker) :
    (agcCompute C new t).idx =
      if (agcCompute C new t).hold = 0 then min ((agcStep5 C (agcDiff (agcSmooth t new)) t).idx + 1) 41
      else (agcStep5 C (agcDiff (agcSmooth t new)) t).idx := by
  simp [agcCompute, agcStore]

/-- From the band's lower end up, the index is step 5's: the hold is 30, so step 7 does not run (43 R204). -/
theorem agcCompute_idx_of_ge_band (C : Config) {new : Nat} {t : Tracker} (h : -6 ≤ agcDiff (agcSmooth t new)) :
    (agcCompute C new t).idx = (agcStep5 C (agcDiff (agcSmooth t new)) t).idx := by
  rw [agcCompute_idx, agcCompute_hold, if_pos h, if_neg (by decide)]

theorem agcCompute_idx_of_in_band (C : Config) {new : Nat} {t : Tracker} (h : -6 ≤ agcDiff (agcSmooth t new))
    (h' : agcDiff (agcSmooth t new) ≤ 0) : (agcCompute C new t).idx = t.idx := by
  rw [agcCompute_idx_of_ge_band C h, agcStep5_of_nonpos C h']

/-- Below the band only steps 3 and 7 act: the index advances when the decremented hold is 0 (43 R193, R197). -/
theorem agcCompute_idx_of_below_band (C : Config) {new : Nat} {t : Tracker} (h : agcDiff (agcSmooth t new) < -6) :
    (agcCompute C new t).idx = if t.hold ≤ 1 then min (t.idx + 1) 41 else t.idx := by
  rw [agcCompute_idx, agcCompute_hold_of_below_band C h, agcStep5_of_nonpos C (by omega)]
  simp only [Nat.sub_eq_zero_iff_le]

/-- Settles O40: one rule each for the hold and for the index above, in and below the band. -/
theorem holdAndRelaxationOfATick : Obligations.HoldAndRelaxationOfATick := by
  intro C new t
  refine ⟨agcCompute_prevRssi .., agcCompute_prevIdx .., agcCompute_hold .., ?inBand, ?above, ?below⟩
  case inBand => exact agcCompute_idx_of_in_band C
  case above => exact fun h => agcCompute_idx_of_ge_band C (by omega)
  case below => exact agcCompute_idx_of_below_band C

/-! ## Attenuation of one index -/

/-- The walk leaves its start when that entry is above the desired gain. -/
theorem coarseWalk_lt (C : Config) {desired : Int} {i : Nat} (hi : 1 < i) (hgain : desired < (gainEntry C i).gain) :
    coarseWalk C desired i < i := by
  obtain ⟨j, rfl⟩ := Nat.exists_eq_add_of_lt hi
  rw [coarseWalk, if_pos ⟨by omega, hgain⟩]
  exact Nat.lt_succ_of_le (coarseWalk_le ..)

/-- The coarse branch leaves the start because its desired gain is at least 2 below the start's (43 R195). -/
theorem attenuatedIdx_lt (C : Config) {d : Int} {i : Nat} (hi : 1 < i) : attenuatedIdx C d i < i := by
  refine Nat.max_lt.mpr ⟨hi, ?_⟩
  split
  case isTrue hcoarse =>
    rw [coarseDb] at hcoarse
    exact coarseWalk_lt C hi (by rw [coarseMarginDb]; omega)
  case isFalse => omega

theorem attenuatedIdx_of_le_one (C : Config) (d : Int) {i : Nat} (hi : i ≤ 1) : attenuatedIdx C d i = 1 := by
  have lower := attenuatedIdx_pos C d i
  have upper := attenuatedIdx_le C d i
  omega

/-! ## Runs of ticks with one reading (43 R206) -/

@[simp] theorem runTicks_replicate_zero (C : Config) (x : Nat) (t : Tracker) :
    runTicks C (List.replicate 0 x) t = t := rfl

@[simp] theorem runTicks_replicate_succ (C : Config) (n x : Nat) (t : Tracker) :
    runTicks C (List.replicate (n + 1) x) t = runTicks C (List.replicate n x) (agcCompute C x t) := rfl

/-- After a tick the stored reading is the new one, so from the second tick on a constant reading is its own mean. -/
theorem agcSmooth_agcCompute (C : Config) (x : Nat) (t : Tracker) : agcSmooth (agcCompute C x t) x = x :=
  agcSmooth_same (agcCompute_prevRssi ..)

section
variable (C : Config) {x : Nat} {t : Tracker} (hx : agcSmooth t x = x)
include hx

theorem agcCompute_idx_of_above_band (hd : 0 < agcDiff x) :
    (agcCompute C x t).idx = attenuatedIdx C (agcDiff x) t.idx := by
  rw [agcCompute_idx_of_ge_band C (by rw [hx]; omega), agcStep5_idx, hx, if_pos hd]

/-- Above the band: each tick lowers an index above 1 and keeps 1, so the index is 1 once there were as many ticks as it
was above 1. -/
theorem runTicks_idx_of_above_band (hd : 0 < agcDiff x) {n : Nat} (hpos : 1 ≤ t.idx) (hn : t.idx ≤ n + 1) :
    (runTicks C (List.replicate n x) t).idx = 1 := by
  induction n generalizing t with
  | zero => exact Nat.le_antisymm hn hpos
  | succ n ih =>
    have step := agcCompute_idx_of_above_band C hx hd
    refine ih (agcSmooth_agcCompute C x t) (step ▸ attenuatedIdx_pos ..) ?_
    rw [step]
    rcases Nat.lt_or_ge 1 t.idx with high | low
    · have lower := attenuatedIdx_lt C (d := agcDiff x) high
      omega
    · rw [attenuatedIdx_of_le_one C _ low]
      omega

theorem runTicks_idx_of_in_band (hd : -6 ≤ agcDiff x) (hd' : agcDiff x ≤ 0) (n : Nat) :
    (runTicks C (List.replicate n x) t).idx = t.idx := by
  induction n generalizing t with
  | zero => rfl
  | succ n ih =>
    rw [runTicks_replicate_succ, ih (agcSmooth_agcCompute C x t),
      agcCompute_idx_of_in_band C (by rwa [hx]) (by rwa [hx])]

theorem runTicks_hold_of_below_band (hd : agcDiff x < -6) (n : Nat) :
    (runTicks C (List.replicate n x) t).hold = t.hold - n := by
  induction n generalizing t with
  | zero => rfl
  | succ n ih =>
    rw [runTicks_replicate_succ, ih (agcSmooth_agcCompute C x t), agcCompute_hold_of_below_band C (by rwa [hx])]
    omega

/-- Below the band: no rise while the hold counts down to 0, one in the tick that brings it there, and one a tick from then
on, up to 41. -/
theorem runTicks_idx_of_below_band (hd : agcDiff x < -6) (hidx : t.idx ≤ 41) (n : Nat) :
    (runTicks C (List.replicate n x) t).idx = min (t.idx + (if t.hold = 0 then n else n + 1 - t.hold)) 41 := by
  induction n generalizing t with
  | zero =>
    rw [runTicks_replicate_zero]
    split <;> omega
  | succ n ih =>
    have below : agcDiff (agcSmooth t x) < -6 := by rwa [hx]
    have step := agcCompute_idx_of_below_band C below
    rw [runTicks_replicate_succ, ih (agcSmooth_agcCompute C x t) (by split at step <;> omega),
      agcCompute_hold_of_below_band C below, step]
    rcases Nat.lt_or_ge 1 t.hold with holding | relaxing
    · rw [if_neg (by omega), if_neg (by omega), if_neg (by omega)]
      omega
    · rw [if_pos relaxing, if_pos (by omega)]
      split <;> omega

end

/-- Settles O43: by induction on the ticks, in each of the three ranges of the distance; `agcSmooth t x = x` is what every
tick establishes for the next. -/
theorem constantReadingConverges : Obligations.ConstantReadingConverges := by
  intro C x t
  refine ⟨agcSmooth_agcCompute C x t, fun hlt _ hprev => ?_⟩
  have hidx : t.idx ≤ 41 := Nat.le_of_lt_succ hlt
  have hx : agcSmooth t x = x := hprev.elim (agcSmooth_of_no_reading · x) agcSmooth_same
  refine ⟨hx, fun hd => ?above, runTicks_idx_of_in_band C hx, fun hd n => ?below⟩
  case above =>
    have step := agcCompute_idx_of_above_band C hx hd
    refine ⟨fun high => step ▸ attenuatedIdx_lt C high, fun low => step ▸ attenuatedIdx_of_le_one C _ low, ?_⟩
    intro n hn
    obtain ⟨m, rfl⟩ := Nat.exists_eq_add_of_le' (Nat.le_trans (by decide : 1 ≤ 41) hn)
    refine runTicks_idx_of_above_band C (agcSmooth_agcCompute C x t) hd (step ▸ attenuatedIdx_pos ..) ?_
    have upper := attenuatedIdx_le C (agcDiff x) t.idx
    omega
  case below =>
    exact ⟨runTicks_hold_of_below_band C hx hd n, runTicks_idx_of_below_band C hx hd hidx n⟩

end Sys2Proof.Machine
end

section
/-! SUPPORT, and the proofs of O1 to O6. The encodings on numbers: the command words as sums of their fields, and the
decoder's tests as divisions and remainders of the word (30 R81 to R89). -/

namespace Sys2Proof

/-! ## Fields and words as numbers -/

theorem toNat_bitsOf {w : Nat} (c : BitVec w) (lo width : Nat) :
    (bitsOf c lo width).toNat = c.toNat / 2 ^ lo % 2 ^ width := by
  simp [bitsOf, Nat.shiftRight_eq_div_pow]

theorem bitsOf_eq_ofNat_iff {w : Nat} (c : BitVec w) (lo width n : Nat) :
    bitsOf c lo width = BitVec.ofNat width n ↔ c.toNat / 2 ^ lo % 2 ^ width = n % 2 ^ width := by
  rw [← BitVec.toNat_inj, toNat_bitsOf, BitVec.toNat_ofNat]

/-- Concatenation is a sum, the right part being below its weight. -/
theorem toNat_append_eq_add {m n : Nat} (x : BitVec m) (y : BitVec n) :
    (x ++ y).toNat = x.toNat * 2 ^ n + y.toNat := by
  rw [BitVec.toNat_append, ← Nat.shiftLeft_add_eq_or_of_lt y.isLt, Nat.shiftLeft_eq]

theorem toNat_busWriteWord (a : Addr) (d : Word16) :
    (busWriteWord a d).toNat = 0x4000000000000000 + a.toNat * 2 ^ 48 + d.toNat * 2 ^ 32 := by
  simp only [busWriteWord, toNat_append_eq_add, BitVec.toNat_ofNat]
  omega

theorem toNat_busReadWord (a : Addr) : (busReadWord a).toNat = 0x8000000000000000 + a.toNat * 2 ^ 48 := by
  simp only [busReadWord, toNat_append_eq_add, BitVec.toNat_ofNat]
  omega

theorem toNat_agcTickWord (v : Vfo) (rx : Bool) (f : Word32) :
    (agcTickWord v rx f).toNat = 0xC000000000000000 + v.bit.toNat * 2 ^ 61 + rx.toNat * 2 ^ 60 + f.toNat := by
  simp only [agcTickWord, toNat_append_eq_add, BitVec.toNat_ofNat, BitVec.toNat_ofBool]
  omega

/-- Settles O6: each word is the concatenation of its fields, and concatenation is a sum. -/
theorem assemblerLineWords : Obligations.AssemblerLineWords :=
  fun a d v rx f => ⟨toNat_busWriteWord a d, toNat_busReadWord a, toNat_agcTickWord v rx f⟩

/-! ## The decoder on numbers -/

/-- The decoder's tests in the order of 30 R85, on the word as a number. -/
theorem decodeWord_eq (c : CmdWord) : decodeWord c =
    if c.toNat / 2 ^ 62 = 0 then .error .reservedOp
    else if c.toNat / 2 ^ 55 % 32 ≠ 0 then .error .reservedBits
    else if c.toNat / 2 ^ 62 = 1 then
      if c.toNat / 2 ^ 60 % 4 ≠ 0 ∨ c.toNat % 2 ^ 32 ≠ 0 then .error .unusedFieldNonZero
      else .ok (.busWrite (bitsOf c 48 7) (bitsOf c 32 16))
    else if c.toNat / 2 ^ 62 = 2 then
      if c.toNat / 2 ^ 60 % 4 ≠ 0 ∨ c.toNat % 2 ^ 48 ≠ 0 then .error .unusedFieldNonZero
      else .ok (.busRead (bitsOf c 48 7))
    else
      if c.toNat / 2 ^ 32 % 2 ^ 23 ≠ 0 then .error .unusedFieldNonZero
      else .ok (.agcTick (vfoOfBit (c.getLsbD 61)) (c.getLsbD 60) (bitsOf c 0 32)) := by
  have op : c.toNat / 2 ^ 62 % 2 ^ 2 = c.toNat / 2 ^ 62 := by omega
  have reserved : c.toNat / 2 ^ 56 % 2 ^ 4 ≠ 0 ∨ c.toNat / 2 ^ 55 % 2 ^ 1 ≠ 0 ↔
      c.toNat / 2 ^ 55 % 32 ≠ 0 := by omega
  simp only [decodeWord, ne_eq, bitsOf_eq_ofNat_iff, op, Nat.zero_mod, Nat.pow_zero, Nat.div_one] at reserved ⊢
  simp only [reserved]
  rfl

/-- Settles O4: the branches of `decodeWord_eq` that answer an error. -/
theorem illegalWordsAndTheirReasons : Obligations.IllegalWordsAndTheirReasons := by
  intro c
  rw [decodeWord_eq]
  split_ifs <;> simp <;> omega

/-! ## Decoding an encoded word -/

@[simp] theorem decodeWord_busWriteWord (a : Addr) (d : Word16) :
    decodeWord (busWriteWord a d) = .ok (.busWrite a d) := by
  have word := toNat_busWriteWord a d
  have addr : bitsOf (busWriteWord a d) 48 7 = a := by
    rw [← BitVec.toNat_inj, toNat_bitsOf, word]; omega
  have data : bitsOf (busWriteWord a d) 32 16 = d := by
    rw [← BitVec.toNat_inj, toNat_bitsOf, word]; omega
  rw [decodeWord_eq, addr, data, if_neg (by omega), if_neg (by omega), if_pos (by omega), if_neg (by omega)]

@[simp] theorem decodeWord_busReadWord (a : Addr) : decodeWord (busReadWord a) = .ok (.busRead a) := by
  have word := toNat_busReadWord a
  have addr : bitsOf (busReadWord a) 48 7 = a := by
    rw [← BitVec.toNat_inj, toNat_bitsOf, word]; omega
  rw [decodeWord_eq, addr, if_neg (by omega), if_neg (by omega), if_neg (by omega), if_pos (by omega), if_neg (by omega)]

theorem vfoOfBit_agcTickWord (v : Vfo) (rx : Bool) (f : Word32) :
    vfoOfBit ((agcTickWord v rx f).getLsbD 61) = v := by
  simp only [agcTickWord, BitVec.getLsbD_append]
  cases v <;> rfl

@[simp] theorem vfoOfBit_agcTickWord_getElem (v : Vfo) (rx : Bool) (f : Word32) :
    vfoOfBit (agcTickWord v rx f)[61] = v := vfoOfBit_agcTickWord v rx f

@[simp] theorem decodeWord_agcTickWord (v : Vfo) (rx : Bool) (f : Word32) :
    decodeWord (agcTickWord v rx f) = .ok (.agcTick v rx f) := by
  have word := toNat_agcTickWord v rx f
  have hv := v.bit.isLt
  have hrx := rx.toNat_lt
  have rxBit : (agcTickWord v rx f).getLsbD 60 = rx := by
    simp only [agcTickWord, BitVec.getLsbD_append]
    simp
  have freq : bitsOf (agcTickWord v rx f) 0 32 = f := by
    rw [← BitVec.toNat_inj, toNat_bitsOf, word]; omega
  rw [decodeWord_eq, vfoOfBit_agcTickWord, rxBit, freq, if_neg (by omega), if_neg (by omega), if_neg (by omega),
    if_neg (by omega), if_neg (by omega)]

@[simp] theorem decodeFrame_writeFrame (a : Addr) (d : Word16) : decodeFrame (writeFrame a d) = .frameWrite a d := by
  simp [decodeFrame]

@[simp] theorem decodeFrame_readFrame (a : Addr) (d : Word16) : decodeFrame (readFrame a d) = .frameRead a d := by
  simp [decodeFrame]

/-- Settles O1: one round trip for each form that has bits; a pseudo-operation has none. -/
theorem encodedInstructionDecodesBack : Obligations.EncodedInstructionDecodesBack := by
  intro i e h
  cases i <;> simp only [encode, Option.some.injEq, reduceCtorEq] at h <;> subst h <;> simp [decodeEncoded]

/-! ## Encoding a decoded word -/

theorem bit_vfoOfBit (c : CmdWord) : (vfoOfBit (c.getLsbD 61)).bit.toNat = c.toNat / 2 ^ 61 % 2 := by
  rw [BitVec.getLsbD, Nat.testBit_eq_decide_div_mod_eq, vfoOfBit]
  split <;> simp_all [Vfo.bit]

theorem toNat_getLsbD_60 (c : CmdWord) : (c.getLsbD 60).toNat = c.toNat / 2 ^ 60 % 2 := by
  rw [BitVec.getLsbD, Nat.toNat_testBit]

/-- A word that decodes is the word of what it decodes to: the decoder drops no bit. -/
theorem encode_of_decodeWord {c : CmdWord} {i : Instr} (h : decodeWord c = .ok i) : encode i = some (.word c) := by
  rw [decodeWord_eq] at h
  split_ifs at h <;> cases h <;> refine congrArg (some <| Encoded.word ·) (BitVec.eq_of_toNat_eq ?_)
  · rw [toNat_busWriteWord, toNat_bitsOf, toNat_bitsOf]
    omega
  · rw [toNat_busReadWord, toNat_bitsOf]
    omega
  · rw [toNat_agcTickWord, bit_vfoOfBit, toNat_getLsbD_60, toNat_bitsOf]
    omega

theorem frame_eq_append (f : Frame) : BitVec.ofBool (frameIsRead f) ++ frameAddr f ++ frameData f = f := by
  apply BitVec.eq_of_toNat_eq
  simp only [toNat_append_eq_add, frameAddr, frameData, toNat_bitsOf, frameIsRead, BitVec.toNat_ofBool, BitVec.getLsbD,
    Nat.toNat_testBit]
  omega

theorem encode_decodeFrame (f : Frame) : encode (decodeFrame f) = some (.frame f) := by
  have whole := frame_eq_append f
  cases h : frameIsRead f <;> rw [h] at whole <;> rw [decodeFrame, h] <;> exact congrArg (some <| Encoded.frame ·) whole

/-- Settles O2: for a word by `encode_of_decodeWord`; a frame is its three fields. -/
theorem decodedBitsEncodeBack : Obligations.DecodedBitsEncodeBack := by
  intro e i h
  cases e with
  | word c =>
    rw [decodeEncoded] at h
    split at h
    case h_1 j hj => exact Option.some.inj h ▸ encode_of_decodeWord hj
    case h_2 => cases h
  | frame f => exact Option.some.inj h ▸ encode_decodeFrame f

/-! ## The opcode table's masks -/

/-- Two words that fit a row's mask and match, and agree where the mask leaves the bits free, are one word. -/
theorem eq_of_masked_eq {c e mask pattern : CmdWord} (hc : c &&& mask = pattern) (he : e &&& mask = pattern)
    (free : ∀ i < 64, mask.getLsbD i = false → c.getLsbD i = e.getLsbD i) : c = e := by
  refine BitVec.eq_of_getLsbD_eq fun i hi => ?_
  have agree : (c &&& mask).getLsbD i = (e &&& mask).getLsbD i := by rw [hc, he]
  cases hm : mask.getLsbD i with
  | false => exact free i hi hm
  | true => simpa [hm] using agree

theorem busWriteWord_masked (a : Addr) (d : Word16) :
    busWriteWord a d &&& 0xFF800000FFFFFFFF#64 = 0x4000000000000000#64 :=
  BitVec.eq_of_toNat_eq (Laws.TableRow.busWrite a d)

theorem busReadWord_masked (a : Addr) : busReadWord a &&& 0xFF80FFFFFFFFFFFF#64 = 0x8000000000000000#64 :=
  BitVec.eq_of_toNat_eq (Laws.TableRow.busRead a)

theorem agcTickWord_masked (v : Vfo) (rx : Bool) (f : Word32) :
    agcTickWord v rx f &&& 0xCFFFFFFF00000000#64 = 0xC000000000000000#64 :=
  BitVec.eq_of_toNat_eq (Laws.TableRow.agcTick v rx f)

/-- BUS_WRITE's mask leaves free the bits of its operands. -/
theorem eq_busWriteWord_of_masked {c : CmdWord} (h : c &&& 0xFF800000FFFFFFFF#64 = 0x4000000000000000#64) :
    c = busWriteWord (bitsOf c 48 7) (bitsOf c 32 16) := by
  refine eq_of_masked_eq h (busWriteWord_masked ..) fun i hi free => ?_
  simp only [busWriteWord, bitsOf, BitVec.getLsbD_append]
  interval_cases i <;> simp at free ⊢

theorem eq_busReadWord_of_masked {c : CmdWord} (h : c &&& 0xFF80FFFFFFFFFFFF#64 = 0x8000000000000000#64) :
    c = busReadWord (bitsOf c 48 7) := by
  refine eq_of_masked_eq h (busReadWord_masked ..) fun i hi free => ?_
  simp only [busReadWord, bitsOf, BitVec.getLsbD_append]
  interval_cases i <;> simp at free ⊢

theorem bit_vfoOfBit_bool (b : Bool) : (vfoOfBit b).bit = BitVec.ofBool b := by cases b <;> rfl

theorem eq_agcTickWord_of_masked {c : CmdWord} (h : c &&& 0xCFFFFFFF00000000#64 = 0xC000000000000000#64) :
    c = agcTickWord (vfoOfBit (c.getLsbD 61)) (c.getLsbD 60) (bitsOf c 0 32) := by
  refine eq_of_masked_eq h (agcTickWord_masked ..) fun i hi free => ?_
  simp only [agcTickWord, bit_vfoOfBit_bool, bitsOf, BitVec.getLsbD_append]
  interval_cases i <;> simp at free ⊢

/-- Settles O3: a row's words are the encodings of its operands, and those are the words that decode to it. -/
theorem commandWordsMatchTheTable : Obligations.CommandWordsMatchTheTable := by
  intro c
  refine ⟨⟨?_, fun h => ⟨_, _, (congrArg decodeWord (eq_busWriteWord_of_masked h)).trans (decodeWord_busWriteWord ..)⟩⟩,
    ⟨?_, fun h => ⟨_, (congrArg decodeWord (eq_busReadWord_of_masked h)).trans (decodeWord_busReadWord ..)⟩⟩,
    ⟨?_, fun h => ⟨_, _, _, (congrArg decodeWord (eq_agcTickWord_of_masked h)).trans (decodeWord_agcTickWord ..)⟩⟩⟩
  · rintro ⟨a, d, h⟩
    cases encode_of_decodeWord h
    exact busWriteWord_masked a d
  · rintro ⟨a, h⟩
    cases encode_of_decodeWord h
    exact busReadWord_masked a
  · rintro ⟨v, rx, f, h⟩
    cases encode_of_decodeWord h
    exact agcTickWord_masked v rx f

/-- Settles O5: seven fixed words, decoded. -/
theorem specWordsDecode : Obligations.SpecWordsDecode := by
  unfold Obligations.SpecWordsDecode
  decide

end Sys2Proof
end

section
/-! SUPPORT, and the proofs of O7 to O9. The phase sequences as chains of `nextSlot`, the pins of a wave phase by phase,
and the rising edges of `SCK` in it (41 R122 to R127). -/

namespace Sys2Proof.Machine

/-! ## The phase sequences are chains -/

theorem writeSeq_length : writeSeq.length = 76 := rfl

theorem readSeq_length : readSeq.length = 61 := rfl

theorem writeSeq_chain : ∀ k < 76, ∀ x ∈ writeSeq[k]?, nextSlot false x.1 x.2 = writeSeq[k + 1]? := by decide

theorem readSeq_chain : ∀ k < 61, ∀ x ∈ readSeq[k]?, nextSlot true x.1 x.2 = readSeq[k + 1]? := by decide

/-- Settles O8: the two chains, decided position by position. -/
theorem phaseSequencesAreTheNextSlotChains : Obligations.PhaseSequencesAreTheNextSlotChains :=
  ⟨writeSeq_length, readSeq_length, rfl, rfl, fun k hk x _ hx hy => hy ▸ writeSeq_chain k hk x hx,
    fun k hk x _ hx hy => hy ▸ readSeq_chain k hk x hx⟩

/-- Each slot of a frame's sequence is followed by its `nextSlot`, and the last by none. -/
theorem nextSlot_of_frameSeq {f : Frame} {k : Nat} {sl : Slot} (h : (frameSeq f)[k]? = some sl) :
    nextSlot (frameIsRead f) sl.1 sl.2 = (frameSeq f)[k + 1]? := by
  obtain ⟨hk, -⟩ := List.getElem?_eq_some_iff.mp h
  cases e : frameIsRead f with
  | false => rw [frameSeq_write e] at h hk ⊢; exact writeSeq_chain k hk sl h
  | true => rw [frameSeq_read e] at h hk ⊢; exact readSeq_chain k hk sl h

theorem frameSeq_head (f : Frame) : (frameSeq f)[0]? = some (.pre, 0) := by
  unfold frameSeq
  split <;> rfl

/-- `CS` is asserted in the phases strictly inside a sequence (41 R123, R124). -/
theorem csAsserted_frameSeq {f : Frame} {k : Nat} {sl : Slot} (h : (frameSeq f)[k]? = some sl) :
    csAsserted sl.1 = true ↔ 0 < k ∧ k + 1 < (frameSeq f).length := by
  have write : ∀ k < 76, ∀ x ∈ writeSeq[k]?, (csAsserted x.1 = true ↔ 0 < k ∧ k + 1 < 76) := by decide
  have read : ∀ k < 61, ∀ x ∈ readSeq[k]?, (csAsserted x.1 = true ↔ 0 < k ∧ k + 1 < 61) := by decide
  obtain ⟨hk, -⟩ := List.getElem?_eq_some_iff.mp h
  cases e : frameIsRead f with
  | false => rw [frameSeq_write e] at h hk ⊢; exact write k hk sl h
  | true => rw [frameSeq_read e] at h hk ⊢; exact read k hk sl h

/-! ## The pins of a phase -/

@[simp] theorem csLevel_beq_asserted (C : Config) (b : Bool) : (csLevel C b == csLevel C true) = b := by
  cases b <;> cases h : C.csActiveLow <;> simp [csLevel, h]

/-- The slave is selected in exactly the phases with `CS` asserted. -/
@[simp] theorem phasePins_selected (C : Config) (f : Frame) (ph : Phase) (b : Nat) (held : Bool) :
    (phasePins C f ph b held).selected C = csAsserted ph := by
  cases ph <;> simp [phasePins, Pins.selected, csAsserted]

theorem csAsserted_of_sck {C : Config} {f : Frame} {ph : Phase} {b : Nat} {held : Bool}
    (h : (phasePins C f ph b held).sck = true) : csAsserted ph = true := by
  cases ph <;> simp [phasePins, csAsserted] at h ⊢

/-- From one phase to the next: with `CS` deasserted in either, `SCK` is low in both, and with `SCK` high in either, `SDA`
and its driver do not change (41 R127). -/
theorem phasePins_next (C : Config) (f : Frame) {sl n : Slot} (held : Bool)
    (h : nextSlot (frameIsRead f) sl.1 sl.2 = some n) :
    let x := phasePins C f sl.1 sl.2 held
    let y := phasePins C f n.1 n.2 x.sdaOut
    ((x.selected C = false ∨ y.selected C = false) → x.sck = false ∧ y.sck = false) ∧
    ((x.sck = true ∨ y.sck = true) → x.sdaOut = y.sdaOut ∧ x.sdaOe = y.sdaOe) := by
  obtain ⟨ph, b⟩ := sl
  cases ph <;> simp only [nextSlot] at h <;> (try split at h) <;> cases h <;> simp [phasePins, Pins.selected]

/-! ## The pins along a wave -/

@[simp] theorem wave_length (C : Config) (f : Frame) (p : Pins) (l : List Slot) : (wave C f p l).length = l.length := by
  induction l generalizing p with
  | nil => rfl
  | cons sl rest ih => simp [wave, ih]

/-- Phase `k` of a wave takes `SDA`'s held level from the pins before it. -/
theorem wave_getElem? (C : Config) (f : Frame) (p : Pins) (l : List Slot) (k : Nat) {sl : Slot} (h : l[k]? = some sl) :
    ∃ x, (p :: wave C f p l)[k]? = some x ∧ (wave C f p l)[k]? = some (phasePins C f sl.1 sl.2 x.sdaOut) := by
  induction l generalizing p k with
  | nil => cases h
  | cons first rest ih =>
    cases k with
    | zero => exact ⟨p, rfl, by cases h; rfl⟩
    | succ k => exact ih _ k h

theorem slot_of_wave {C : Config} {f : Frame} {p : Pins} {l : List Slot} {k : Nat} {y : Pins}
    (h : (wave C f p l)[k]? = some y) : ∃ sl, l[k]? = some sl ∧
      ∃ x, (p :: wave C f p l)[k]? = some x ∧ y = phasePins C f sl.1 sl.2 x.sdaOut := by
  obtain ⟨hk, -⟩ := List.getElem?_eq_some_iff.mp h
  rw [wave_length] at hk
  obtain ⟨x, hx, hy⟩ := wave_getElem? C f p l k (List.getElem?_eq_getElem hk)
  exact ⟨l[k], List.getElem?_eq_getElem hk, x, hx, Option.some.inj (h.symm.trans hy)⟩

theorem mem_of_mem_risingEdges {p q : Pins} {w : List Pins} (h : q ∈ risingEdges p w) : q ∈ w ∧ q.sck = true := by
  induction w generalizing p with
  | nil => cases h
  | cons first rest ih =>
    rw [risingEdges] at h
    split at h
    case isTrue rising =>
      rcases List.mem_cons.mp h with rfl | later
      · exact ⟨List.mem_cons_self, by simpa using And.right (by simpa using rising)⟩
      · exact ⟨List.mem_cons_of_mem _ (ih later).1, (ih later).2⟩
    case isFalse => exact ⟨List.mem_cons_of_mem _ (ih h).1, (ih h).2⟩

/-- Every rising edge of `SCK` in a wave is while `CS` is asserted (41 R127). -/
theorem selected_of_mem_risingEdges {C : Config} {f : Frame} {p q : Pins} {l : List Slot}
    (h : q ∈ risingEdges p (wave C f p l)) : q.selected C = true := by
  obtain ⟨hmem, hsck⟩ := mem_of_mem_risingEdges h
  obtain ⟨k, hk⟩ := List.mem_iff_getElem?.mp hmem
  obtain ⟨sl, -, x, -, rfl⟩ := slot_of_wave hk
  rw [phasePins_selected, csAsserted_of_sck hsck]

theorem risingEdges_length (C : Config) (f : Frame) {p : Pins} (h : p.sck = false) :
    (risingEdges p (wave C f p (frameSeq f))).length = 24 := by
  obtain ⟨cs, sck, out, oe⟩ := p
  cases h
  cases e : frameIsRead f with
  | false => rw [frameSeq_write e]; rfl
  | true => rw [frameSeq_read e]; rfl

/-- Settles O9: each clause is a fact about one phase, or about a phase and the one `nextSlot` gives after it. -/
theorem wireInvariantsOfATransaction : Obligations.WireInvariantsOfATransaction := by
  intro C f out p w
  have unselected : p.selected C = false := csLevel_beq_asserted C false
  refine ⟨unselected, fun k x hx => ?cs, wave_length .., risingEdges_length C f rfl,
    fun q hq => selected_of_mem_risingEdges hq, fun k x y hx hy => ?pair⟩
  case cs =>
    obtain ⟨sl, hsl, z, -, rfl⟩ := slot_of_wave hx
    rw [phasePins_selected]
    exact csAsserted_frameSeq hsl
  case pair =>
    obtain ⟨n, hn, z, hz, rfl⟩ := slot_of_wave hy
    cases Option.some.inj (hx.symm.trans hz)
    cases k with
    | zero =>
      cases hx
      rw [frameSeq_head] at hn
      cases hn
      simp [phasePins, p]
    | succ k =>
      obtain ⟨sl, hsl, held, -, rfl⟩ := slot_of_wave (f := f) (k := k) hx
      exact phasePins_next C f held.sdaOut ((nextSlot_of_frameSeq hsl).trans hn)

/-! ## What the slave captures -/

/-- Every edge of a wave is selected, so the slave captures where the master drives. -/
theorem capturedBits_wave (C : Config) (f : Frame) (p : Pins) (l : List Slot) :
    capturedBits C p (wave C f p l) = ((risingEdges p (wave C f p l)).filter Pins.sdaOe).map Pins.sdaOut := by
  unfold capturedBits
  congr 1
  refine List.filter_congr fun q hq => ?_
  rw [selected_of_mem_risingEdges hq, Bool.true_and]

/-- Of a write frame the slave captures all 24 bits (41 R126.2). -/
theorem capturedBits_write (C : Config) {f : Frame} (h : frameIsRead f = false) {p : Pins} (hp : p.sck = false) :
    capturedBits C p (wave C f p (frameSeq f)) = (List.range 24).map (frameBit f) := by
  obtain ⟨cs, sck, out, oe⟩ := p
  cases hp
  rw [capturedBits_wave, frameSeq_write h]
  rfl

/-- Of a read frame the slave captures the eight bits of the read flag and the address (41 R126.2). -/
theorem capturedBits_read (C : Config) {f : Frame} (h : frameIsRead f = true) {p : Pins} (hp : p.sck = false) :
    capturedBits C p (wave C f p (frameSeq f)) = (List.range 8).map (frameBit f) := by
  obtain ⟨cs, sck, out, oe⟩ := p
  cases hp
  rw [capturedBits_wave, frameSeq_read h]
  rfl

/-- A frame's bit in wire order, field by field: the read flag, the address, the data. -/
theorem frameBit_append (x : BitVec 1) (a : Addr) (d : Word16) (b : Nat) :
    frameBit (x ++ a ++ d) b = if 23 - b < 16 then d.getLsbD (23 - b)
      else if 23 - b - 16 < 7 then a.getLsbD (23 - b - 16) else x.getLsbD (23 - b - 16 - 7) := by
  simp only [frameBit, BitVec.getLsbD_append]

/-- The bits of a write frame in wire order (20 R63). -/
theorem bits_writeFrame (a : Addr) (d : Word16) :
    (List.range 24).map (frameBit (writeFrame a d)) = false :: msbFirst a ++ msbFirst d := by
  simp [writeFrame, frameBit_append, msbFirst, List.range_succ]

/-- The first eight bits of a read frame in wire order (20 R63). -/
theorem bits_readFrame (a : Addr) (d : Word16) :
    (List.range 8).map (frameBit (readFrame a d)) = true :: msbFirst a := by
  simp [readFrame, frameBit_append, msbFirst, List.range_succ]

/-- Settles O7: the captured bits are the frame's bits in wire order, all 24 or the first eight. -/
theorem slaveCapturesTheFrameMsbFirst : Obligations.SlaveCapturesTheFrameMsbFirst := by
  intro C a d out oe
  constructor
  · rw [capturedBits_write C (frameIsRead_writeFrame a d) rfl, bits_writeFrame]
  · rw [capturedBits_read C (frameIsRead_readFrame a d) rfl, bits_readFrame]

end Sys2Proof.Machine
end

section
/-! SUPPORT, and the proofs of O38, O39, O41, O42 and O44. The order of the ladder, the coarse walk on it, and runs of
ticks under the hold (43 R180, R181, R195, R203, R205). -/

namespace Sys2Proof.Machine

/-! ## The ladder -/

theorem gainEntry_base (C : Config) : gainEntry C 0 = ⟨0x03BE#16, -7⟩ := C.table_base

theorem gainEntry_strictMono (C : Config) {i j : Nat} (hi : 1 ≤ i) (hij : i < j) (hj : j < gainTableLen) :
    (gainEntry C i).gain < (gainEntry C j).gain := by
  obtain ⟨n, rfl⟩ := Nat.exists_eq_add_of_lt hij
  induction n with
  | zero => exact C.table_ascending i (by omega) hi
  | succ n ih => exact (ih (by omega) (by omega)).trans (C.table_ascending (i + n + 1) (by omega) (by omega))

/-- Entry 0 has gain −7, and the ladder runs from −93 at 1 to 0 at 41 (10 R30). -/
theorem gainEntry_range (C : Config) {i : Nat} (hi : i < gainTableLen) :
    -93 ≤ (gainEntry C i).gain ∧ (gainEntry C i).gain ≤ 0 := by
  have bottom : (gainEntry C 1).gain = -93 := C.table_bottom
  have top : (gainEntry C 41).gain = 0 := C.table_top
  rcases Nat.eq_zero_or_pos i with rfl | ladder
  · rw [gainEntry_base]
    decide
  · constructor
    · rcases Nat.eq_or_lt_of_le ladder with rfl | above
      · exact bottom.ge
      · exact bottom ▸ (gainEntry_strictMono C (Nat.le_refl 1) above hi).le
    · rcases Nat.eq_or_lt_of_le (Nat.le_of_lt_succ hi) with rfl | below
      · exact top.le
      · exact top ▸ (gainEntry_strictMono C ladder below (by decide)).le

/-- Settles O44: `table_ascending` from neighbours to all pairs, and the ends of the ladder. -/
theorem ladderIsStrictlyAscending : Obligations.LadderIsStrictlyAscending :=
  fun C _ _ => ⟨gainEntry_strictMono C, gainEntry_range C⟩

/-! ## The coarse walk -/

/-- The walk passes exactly the entries above the desired gain (43 R195, D23). -/
theorem coarseWalk_spec (C : Config) (desired : Int) {i : Nat} (hi : 1 ≤ i) :
    1 ≤ coarseWalk C desired i ∧
    (coarseWalk C desired i = 1 ∨ (gainEntry C (coarseWalk C desired i)).gain ≤ desired) ∧
    ∀ k, coarseWalk C desired i < k → k ≤ i → desired < (gainEntry C k).gain := by
  induction i with
  | zero => cases hi
  | succ i ih =>
    rw [coarseWalk]
    split
    case isTrue walks =>
      obtain ⟨high, gain⟩ := walks
      obtain ⟨pos, stops, passed⟩ := ih (by omega)
      refine ⟨pos, stops, fun k hk hki => ?_⟩
      rcases Nat.eq_or_lt_of_le hki with rfl | before
      · exact gain
      · exact passed k hk (by omega)
    case isFalse stays => exact ⟨hi, by omega, fun k hk hki => by omega⟩

/-- Settles O38: `coarseWalk_spec`, with the walk never above its start. -/
theorem coarseWalkFindsTheLargestEntry : Obligations.CoarseWalkFindsTheLargestEntry := by
  intro C desired i hi
  obtain ⟨pos, stops, passed⟩ := coarseWalk_spec C desired hi
  exact ⟨pos, coarseWalk_le C desired i, stops, passed⟩

/-! ## Attenuation -/

theorem attenuatedIdx_fine (C : Config) {d : Int} (hd : d < 10) (i : Nat) : attenuatedIdx C d i = max 1 (i - 1) := by
  rw [attenuatedIdx, if_neg (by rw [coarseDb]; omega)]

theorem attenuatedIdx_coarse (C : Config) {d : Int} (hd : 10 ≤ d) {i : Nat} (hi : 1 ≤ i) :
    attenuatedIdx C d i = coarseWalk C ((gainEntry C i).gain - d + 8) i := by
  obtain ⟨pos, -, -⟩ := coarseWalk_spec C ((gainEntry C i).gain - d + 8) hi
  rw [attenuatedIdx, if_pos (show d ≥ coarseDb from hd)]
  exact Nat.max_eq_right pos

/-- Settles O39: from 0 or 1 the index is 1; above, the fine branch is a decrement and the coarse one the walk. -/
theorem attenuationMovesDownTheLadder : Obligations.AttenuationMovesDownTheLadder := by
  intro C d t hidx hd
  rw [agcStep5_idx, if_pos hd]
  obtain ⟨low, high⟩ := gainEntry_range C hidx
  refine ⟨attenuatedIdx_of_le_one C d, fun hi => ⟨attenuatedIdx_pos .., attenuatedIdx_lt C hi⟩,
    fun fine _ => attenuatedIdx_fine C fine _, fun coarse hres => ?stops, fun coarse k hk hki => ?passed,
    fun _ _ => by omega⟩
  case stops =>
    have hi : 1 ≤ t.idx := by
      have := attenuatedIdx_le C d t.idx
      omega
    rw [attenuatedIdx_coarse C coarse hi] at hres ⊢
    obtain ⟨-, stops, -⟩ := coarseWalk_spec C ((gainEntry C t.idx).gain - d + 8) hi
    exact stops.resolve_left hres.ne'
  case passed =>
    have hi : 1 ≤ t.idx := by omega
    rw [attenuatedIdx_coarse C coarse hi] at hk
    obtain ⟨-, -, passed⟩ := coarseWalk_spec C ((gainEntry C t.idx).gain - d + 8) hi
    exact passed k hk hki

/-! ## The index after a tick -/

/-- Above the band a tick's index is the attenuated one, whatever the smoothing gave. -/
theorem agcCompute_idx_attenuated (C : Config) {new : Nat} {t : Tracker} (h : 0 < agcDiff (agcSmooth t new)) :
    (agcCompute C new t).idx = attenuatedIdx C (agcDiff (agcSmooth t new)) t.idx := by
  rw [agcCompute_idx_of_ge_band C (by omega), agcStep5_idx, if_pos h]

/-- The index after a tick: attenuated above the band, kept in it, and below it raised when the hold runs out. -/
theorem agcCompute_idx_cases (C : Config) (new : Nat) (t : Tracker) :
    (0 < agcDiff (agcSmooth t new) ∧ (agcCompute C new t).idx = attenuatedIdx C (agcDiff (agcSmooth t new)) t.idx) ∨
    (-6 ≤ agcDiff (agcSmooth t new) ∧ agcDiff (agcSmooth t new) ≤ 0 ∧ (agcCompute C new t).idx = t.idx) ∨
    (agcDiff (agcSmooth t new) < -6 ∧
      (agcCompute C new t).idx = if t.hold ≤ 1 then min (t.idx + 1) 41 else t.idx) := by
  rcases lt_or_ge 0 (agcDiff (agcSmooth t new)) with above | notAbove
  · exact .inl ⟨above, agcCompute_idx_attenuated C above⟩
  rcases lt_or_ge (agcDiff (agcSmooth t new)) (-6) with below | inBand
  · exact .inr (.inr ⟨below, agcCompute_idx_of_below_band C below⟩)
  · exact .inr (.inl ⟨inBand, notAbove, agcCompute_idx_of_in_band C inBand notAbove⟩)

/-- No tick gives index 0 from the ladder (43 R203). -/
theorem agcCompute_idx_pos (C : Config) (new : Nat) {t : Tracker} (ht : 1 ≤ t.idx) : 1 ≤ (agcCompute C new t).idx := by
  rcases agcCompute_idx_cases C new t with ⟨-, idx⟩ | ⟨-, -, idx⟩ | ⟨-, idx⟩ <;> rw [idx]
  · exact attenuatedIdx_pos ..
  · exact ht
  · split <;> omega

/-- Settles O41: the index after a tick above, in and below the band. -/
theorem indexZeroPersistence : Obligations.IndexZeroPersistence := by
  intro C new t d
  refine ⟨fun hzero => ?_, agcCompute_idx_pos C new, congrArg GainEntry.reg (gainEntry_base C)⟩
  rcases agcCompute_idx_cases C new t with ⟨above, idx⟩ | ⟨inBand, notAbove, idx⟩ | ⟨below, idx⟩ <;> rw [idx]
  · rw [attenuatedIdx_of_le_one C _ (by omega), if_pos (.inl above)]
  · rw [hzero, if_neg (by omega)]
  · rw [hzero]
    exact if_congr (by omega) rfl rfl

/-! ## Runs of ticks under the hold (43 R205) -/

theorem runTicks_append (C : Config) (l m : List Nat) (t : Tracker) :
    runTicks C (l ++ m) t = runTicks C m (runTicks C l t) := List.foldl_append

theorem runTicks_concat (C : Config) (l : List Nat) (x : Nat) (t : Tracker) :
    runTicks C (l ++ [x]) t = agcCompute C x (runTicks C l t) := runTicks_append C l [x] t

theorem runTicks_idx_pos (C : Config) (l : List Nat) {t : Tracker} (ht : 1 ≤ t.idx) : 1 ≤ (runTicks C l t).idx := by
  induction l generalizing t with
  | nil => exact ht
  | cons x l ih => exact ih (agcCompute_idx_pos C x ht)

/-- A tick takes at most one off the hold. -/
theorem runTicks_hold_ge (C : Config) (l : List Nat) {t : Tracker} (ht : t.hold ≤ 30) :
    t.hold - l.length ≤ (runTicks C l t).hold := by
  induction l generalizing t with
  | nil => exact Nat.le_refl _
  | cons x l ih =>
    have step := agcCompute_hold C x t
    have rest : (agcCompute C x t).hold - l.length ≤ (runTicks C (x :: l) t).hold := ih (by split at step <;> omega)
    rw [List.length_cons]
    split at step <;> omega

/-- The index rises only below the band, and only from a hold of at most 1 (43 R197). -/
theorem of_agcCompute_idx_gt (C : Config) {new : Nat} {t : Tracker} (ht : 1 ≤ t.idx)
    (h : t.idx < (agcCompute C new t).idx) : t.hold ≤ 1 ∧ agcDiff (agcSmooth t new) < -6 := by
  rcases agcCompute_idx_cases C new t with ⟨-, idx⟩ | ⟨-, -, idx⟩ | ⟨below, idx⟩ <;> rw [idx] at h
  · have upper := attenuatedIdx_le C (agcDiff (agcSmooth t new)) t.idx
    omega
  · omega
  · split at h
    case isTrue low => exact ⟨low, below⟩
    case isFalse => omega

/-- A run that brings the hold from anything to 0 in at most thirty ticks has only readings below the band: one in or above
it would set the hold to 30, and too few ticks would be left. -/
theorem below_band_of_runTicks_hold_zero (C : Config) {l : List Nat} {t : Tracker} (hl : l.length ≤ 30)
    (h : (runTicks C l t).hold = 0) {k : Nat} (hk : k < l.length) :
    agcDiff (agcSmooth (runTicks C (l.take k) t) (l.getD k 0)) < -6 := by
  by_contra notBelow
  have armed : (runTicks C (l.take (k + 1)) t).hold = 30 := by
    rw [List.take_succ_eq_append_getElem hk, runTicks_concat, agcCompute_hold, if_pos]
    rw [List.getD_eq_getElem l 0 hk] at notBelow
    omega
  have rest := runTicks_hold_ge C (l.drop (k + 1)) armed.le
  rw [← runTicks_append, List.take_append_drop, h, armed, List.length_drop] at rest
  omega

/-- Settles O42: a rise needs a hold of at most 1, and each tick takes at most one off the 30. -/
theorem holdDelaysRelaxationThirtyTicks : Obligations.HoldDelaysRelaxationThirtyTicks := by
  intro C raws t hhold hpos _
  have held := runTicks_hold_ge C raws hhold.le
  have pos := runTicks_idx_pos C raws hpos
  refine ⟨fun hlen x => ?_, fun hlen x hrise => ?_⟩
  · by_contra hrise
    rw [runTicks_concat, Nat.not_le] at hrise
    obtain ⟨low, -⟩ := of_agcCompute_idx_gt C pos hrise
    omega
  · rw [runTicks_concat] at hrise
    obtain ⟨low, below⟩ := of_agcCompute_idx_gt C pos hrise
    have zero : (runTicks C (raws ++ [x]) t).hold = 0 := by
      rw [runTicks_concat, agcCompute_hold_of_below_band C below]
      omega
    have hlen' : (raws ++ [x]).length = 30 := by rw [List.length_append, hlen, List.length_singleton]
    exact ⟨zero, fun k hk => below_band_of_runTicks_hold_zero C hlen'.le zero (hlen' ▸ hk)⟩

end Sys2Proof.Machine
end

section
/-! SUPPORT, and the proofs of O10 to O13. The fields of the state after a bus command and after a bare frame, and what any
run of host software made of bus commands leaves alone (30 R81, R82, 41 R100, R110, 20 R76, 42 R170). -/

namespace Sys2Proof.Machine

/-! ## The last bit on `SDA` -/

@[simp] theorem frameBit_writeFrame_last (a : Addr) (d : Word16) : frameBit (writeFrame a d) 23 = d.getLsbD 0 := by
  simp [writeFrame, frameBit_append]

@[simp] theorem frameBit_readFrame_last (a : Addr) (d : Word16) : frameBit (readFrame a d) 7 = a.getLsbD 0 := by
  simp [readFrame, frameBit_append]

/-- The machine's own chip select is active low (D4). -/
@[simp] theorem csLevel_board : csLevel Config.board false = true := rfl

/-! ## The fields after a BUS_WRITE -/

@[simp] theorem busWriteOn_pos (C : Config) (a : Addr) (d : Word16) (s : State) :
    (busWriteOn C a d s).pos = Pos.start := rfl

@[simp] theorem busWriteOn_settle (C : Config) (a : Addr) (d : Word16) (s : State) : (busWriteOn C a d s).settle = 0 := rfl

@[simp] theorem busWriteOn_txFrame (C : Config) (a : Addr) (d : Word16) (s : State) :
    (busWriteOn C a d s).txFrame = writeFrame a d := rfl

@[simp] theorem busWriteOn_cmdLatch (C : Config) (a : Addr) (d : Word16) (s : State) :
    (busWriteOn C a d s).cmdLatch = busWriteWord a d := rfl

@[simp] theorem busWriteOn_pins (C : Config) (a : Addr) (d : Word16) (s : State) :
    (busWriteOn C a d s).pins = ⟨csLevel C false, false, d.getLsbD 0, true⟩ := by
  rw [busWriteOn_eq, ← frameBit_writeFrame_last a d]

@[simp] theorem busWriteOn_refusal (C : Config) (a : Addr) (d : Word16) (s : State) :
    (busWriteOn C a d s).refusal = none := rfl

@[simp] theorem busWriteOn_hostResult (C : Config) (a : Addr) (d : Word16) (s : State) :
    (busWriteOn C a d s).hostResult = s.hostResult := rfl

/-! ## The fields after a BUS_READ -/

@[simp] theorem busReadOn_pos (C : Config) (a : Addr) (s : State) : (busReadOn C a s).pos = Pos.start := rfl

@[simp] theorem busReadOn_settle (C : Config) (a : Addr) (s : State) : (busReadOn C a s).settle = 0 := rfl

@[simp] theorem busReadOn_txFrame (C : Config) (a : Addr) (s : State) : (busReadOn C a s).txFrame = readFrame a 0#16 := rfl

@[simp] theorem busReadOn_cmdLatch (C : Config) (a : Addr) (s : State) : (busReadOn C a s).cmdLatch = busReadWord a := rfl

@[simp] theorem busReadOn_rxShift (C : Config) (a : Addr) (s : State) :
    (busReadOn C a s).rxShift = C.oracle a s.history := by
  rw [busReadOn_eq]

@[simp] theorem busReadOn_rsp (C : Config) (a : Addr) (s : State) :
    (busReadOn C a s).rsp = ⟨true, .ok, C.oracle a s.history⟩ := by
  rw [busReadOn_eq]

@[simp] theorem busReadOn_history (C : Config) (a : Addr) (s : State) :
    (busReadOn C a s).history = s.history ++ [⟨s.history.length, .rd, a, C.oracle a s.history, .host⟩] := by
  rw [busReadOn_eq]

@[simp] theorem busReadOn_pins (C : Config) (a : Addr) (s : State) :
    (busReadOn C a s).pins = ⟨csLevel C false, false, a.getLsbD 0, true⟩ := by
  rw [busReadOn_eq, ← frameBit_readFrame_last a 0#16]

@[simp] theorem busReadOn_refusal (C : Config) (a : Addr) (s : State) : (busReadOn C a s).refusal = none := rfl

@[simp] theorem busReadOn_hostResult (C : Config) (a : Addr) (s : State) :
    (busReadOn C a s).hostResult = s.hostResult := rfl

/-- Settles O10: the field rules of BUS_WRITE, on the machine's own chip select. -/
theorem busWriteCompletes : Obligations.BusWriteCompletes := fun a d s =>
  ⟨busWriteOn Config.board a d s, rfl, busWriteOn_history .., rfl, rfl, busWriteOn_rsp .., rfl, rfl, rfl,
    busWriteOn_pins .., busWriteOn_rxShift .., rfl, sameAgc_busWriteOn ..⟩

/-- Settles O11: the field rules of BUS_READ, on the machine's own chip select. -/
theorem busReadCompletes : Obligations.BusReadCompletes := fun a s =>
  ⟨busReadOn Config.board a s, rfl, busReadOn_rxShift .., busReadOn_rsp .., busReadOn_history .., rfl, rfl, rfl, rfl, rfl,
    busReadOn_pins .., rfl, sameAgc_busReadOn ..⟩

/-! ## Bare frames -/

/-- FRAME_WRITE, whole (log entry 3). -/
theorem frameWriteOn_eq (C : Config) (a : Addr) (d : Word16) (s : State) : frameWriteOn C a d s = { s with
    pos     := Pos.start
    settle  := 0
    txFrame := writeFrame a d
    pins    := ⟨csLevel C false, false, d.getLsbD 0, true⟩
    rsp     := { s.rsp with valid := false }
    history := s.history ++ [⟨s.history.length, .wr, a, d, s.origin⟩] } := by
  have whole := regWrite_eq C a d s.origin s
  rw [regWrite] at whole
  rw [frameWriteOn, whole, frameBit_writeFrame_last]
  rfl

/-- FRAME_READ, whole (log entry 3). -/
theorem frameReadOn_eq (C : Config) (a : Addr) (d : Word16) (s : State) : frameReadOn C a d s = { s with
    pos     := Pos.start
    settle  := 0
    txFrame := readFrame a 0#16
    rxShift := d
    pins    := ⟨csLevel C false, false, a.getLsbD 0, true⟩
    rsp     := { s.rsp with valid := false }
    history := s.history ++ [⟨s.history.length, .rd, a, d, s.origin⟩] } := by
  rw [frameReadOn, transact_read_eq, frameBit_readFrame_last]
  rfl

theorem sameAgc_frameWriteOn (C : Config) (a : Addr) (d : Word16) (s : State) : SameAgc s (frameWriteOn C a d s) :=
  ⟨fun v => by cases v <;> rfl, fun v => by cases v <;> rfl, rfl, rfl, rfl, rfl⟩

theorem sameAgc_frameReadOn (C : Config) (a : Addr) (d : Word16) (s : State) : SameAgc s (frameReadOn C a d s) :=
  ⟨fun v => by cases v <;> rfl, fun v => by cases v <;> rfl, rfl, rfl, rfl, rfl⟩

/-- Settles O12: the two frames, whole. -/
theorem wireFramesComplete : Obligations.WireFramesComplete := by
  intro a d s
  refine ⟨⟨frameWriteOn Config.board a d s, rfl, ?_⟩, ⟨frameReadOn Config.board a d s, rfl, ?_⟩⟩
  · have same := sameAgc_frameWriteOn Config.board a d s
    rw [frameWriteOn_eq] at same ⊢
    exact ⟨rfl, rfl, rfl, rfl, rfl, rfl, rfl, rfl, rfl, rfl, same⟩
  · have same := sameAgc_frameReadOn Config.board a d s
    rw [frameReadOn_eq] at same ⊢
    exact ⟨rfl, rfl, rfl, rfl, rfl, rfl, rfl, rfl, rfl, rfl, same⟩

/-! ## The simulator's register file (20 R76) -/

theorem lastWritten_append (init : Addr → Word16) (a : Addr) (h : List Event) (e : Event) :
    lastWritten init a (h ++ [e]) = if e.kind = .wr ∧ e.addr = a then e.value else lastWritten init a h :=
  List.foldl_append

/-- A write is what the next read of its register gives, and no other register's. -/
theorem simOracle_after_write (init : Addr → Word16) {vol : Addr → Bool} (script : Addr → List Event → Word16)
    {b : Addr} (hb : vol b = false) (a : Addr) (d : Word16) (h : List Event) (n : Nat) (o : Origin) :
    simOracle init vol script b (h ++ [⟨n, .wr, a, d, o⟩]) = if a = b then d else simOracle init vol script b h := by
  simp only [simOracle, hb, Bool.false_eq_true, if_false, lastWritten_append, true_and]

/-- Settles O13: a read asks the oracle of the history that the write lengthened. -/
theorem simulatorReadsWhatWasWritten : Obligations.SimulatorReadsWhatWasWritten := by
  intro C init vol script horacle a b d s
  rw [busReadOn_rsp, busReadOn_rsp, busReadOn_rsp, busWriteOn_history, horacle]
  refine ⟨fun ha => ?_, fun hb hne => ?_⟩
  · exact (simOracle_after_write init script ha ..).trans (if_pos rfl)
  · exact (simOracle_after_write init script hb ..).trans (if_neg hne.symm)

/-! ## Host software (42 R170) -/

/-- Host software at work: bus commands one after the other, and results given to the host between them. -/
inductive HostRun (C : Config) (s : State) : State → Prop where
  | start : HostRun C s s
  | write {t : State} (a : Addr) (d : Word16) (h : HostRun C s t) : HostRun C s (busWriteOn C a d t)
  | read {t : State} (a : Addr) (h : HostRun C s t) : HostRun C s (busReadOn C a t)
  | give {t : State} (r : HostResult) (h : HostRun C s t) : HostRun C s (t.give r)

theorem HostRun.trans {C : Config} {s t u : State} (h : HostRun C s t) (k : HostRun C t u) : HostRun C s u := by
  induction k with
  | start => exact h
  | write a d _ ih => exact ih.write a d
  | read a _ ih => exact ih.read a
  | give r _ ih => exact ih.give r

theorem HostRun.writeAll {C : Config} (l : List RegWord) {s t : State} (h : HostRun C s t) :
    HostRun C s (writeAllOn C l t) := by
  induction l generalizing t with
  | nil => exact h
  | cons r rest ih => exact ih (h.write r.addr r.word)

theorem HostRun.fscanPoll {C : Config} {s t : State} (h : HostRun C s t) : HostRun C s (fscanPollRun C t).1 := by
  unfold fscanPollRun
  dsimp only
  split
  · exact (h.read _).read _
  · exact h.read _

theorem HostRun.cscanPoll {C : Config} {s t : State} (h : HostRun C s t) : HostRun C s (cscanPollRun C t).1 := by
  unfold cscanPollRun
  dsimp only
  split
  · exact (h.read _).read _
  · exact (h.read _).read _

theorem HostRun.fscanWait {C : Config} (n : Nat) {s t : State} (h : HostRun C s t) :
    HostRun C s (fscanWaitRun C n t).1 := by
  induction n generalizing t with
  | zero => exact h
  | succ n ih =>
    rw [fscanWaitRun]
    split
    · exact ih h.fscanPoll
    · exact h.fscanPoll

theorem HostRun.cscanWait {C : Config} (n : Nat) {s t : State} (h : HostRun C s t) :
    HostRun C s (cscanWaitRun C n t).1 := by
  induction n generalizing t with
  | zero => exact h
  | succ n ih =>
    rw [cscanWaitRun]
    split
    · exact ih h.cscanPoll
    · exact h.cscanPoll

/-- No bus command of the host touches the AGC's state (41 R104). -/
theorem HostRun.sameAgc {C : Config} {s t : State} (h : HostRun C s t) : SameAgc s t := by
  induction h with
  | start => exact sameAgc_refl s
  | write a d _ ih => exact sameAgc_trans ih (sameAgc_busWriteOn C a d _)
  | read a _ ih => exact sameAgc_trans ih (sameAgc_busReadOn C a _)
  | give r _ ih => exact sameAgc_trans ih (sameAgc_give r _)

/-- Every event that host software appends is the host's. -/
theorem HostRun.history {C : Config} {s t : State} (h : HostRun C s t) :
    ∃ l, t.history = s.history ++ l ∧ ∀ e ∈ l, e.origin = .host := by
  induction h with
  | start => exact ⟨[], (List.append_nil _).symm, nofun⟩
  | write a d _ ih =>
    obtain ⟨l, hl, hosts⟩ := ih
    exact ⟨l ++ [_], by rw [busWriteOn_history, hl, List.append_assoc], by simpa [or_imp, forall_and] using hosts⟩
  | read a _ ih =>
    obtain ⟨l, hl, hosts⟩ := ih
    exact ⟨l ++ [_], by rw [busReadOn_history, hl, List.append_assoc], by simpa [or_imp, forall_and] using hosts⟩
  | give r _ ih => exact ih

/-- Host software ends where it began or between commands. -/
theorem HostRun.pos {C : Config} {s t : State} (h : HostRun C s t) (hs : s.pos = Pos.start) : t.pos = Pos.start := by
  induction h with
  | start => exact hs
  | write => rfl
  | read => rfl
  | give _ _ ih => exact ih

/-! ## The pseudo-operations and bus commands are host software -/

theorem hostRun_setSqOn (C : Config) (q : Squelch) (s : State) : HostRun C s (setSqOn C q s) := by
  unfold setSqOn
  split
  · exact (HostRun.start.writeAll _).give _
  · exact HostRun.start.give _

theorem hostRun_setAgcOn (C : Config) (en mode : Nat) (s : State) : HostRun C s (setAgcOn C en mode s) := by
  unfold setAgcOn
  split
  · exact HostRun.start.give _
  · exact ((HostRun.start.read _).write _ _).give _

theorem hostRun_setToneOn (C : Config) (hz : Nat) (s : State) : HostRun C s (setToneOn C hz s) := by
  unfold setToneOn
  split
  · exact HostRun.start.give _
  · exact (HostRun.start.write _ _).give _

theorem hostRun_setCtcssOn (C : Config) (cw : Nat) (s : State) : HostRun C s (setCtcssOn C cw s) := by
  unfold setCtcssOn
  split
  · exact HostRun.start.give _
  · split
    · exact ((HostRun.start.write _ _).write _ _).give _
    · exact (HostRun.start.write _ _).give _

theorem hostRun_setCdcssOn (C : Config) (code : Nat) (s : State) : HostRun C s (setCdcssOn C code s) := by
  unfold setCdcssOn
  split
  · exact HostRun.start.give _
  · exact ((HostRun.start.write _ _).write _ _).give _

/-- What an instruction can do: host software, a bare frame, or a tick of the gain controller. -/
inductive Executed (s : State) : Instr → State → Prop where
  | host {i : Instr} {t : State} (h : HostRun Config.board s t) : Executed s i t
  | frameWrite (a : Addr) (d : Word16) : Executed s (.frameWrite a d) (frameWriteOn Config.board a d s)
  | frameRead (a : Addr) (d : Word16) : Executed s (.frameRead a d) (frameReadOn Config.board a d s)
  | agcTick (v : Vfo) (rx : Bool) (f : Word32) : Executed s (.agcTick v rx f) (agcTickOn Config.board v rx f s)

/-- Every instruction answers a next state, and one of these. -/
theorem exec_executed (i : Instr) (s : State) : ∃ t, exec i s = .next t ∧ Executed s i t := by
  cases i with
  | busWrite a d => exact ⟨_, rfl, .host (HostRun.start.write a d)⟩
  | busRead a => exact ⟨_, rfl, .host (HostRun.start.read a)⟩
  | agcTick v rx f => exact ⟨_, rfl, .agcTick v rx f⟩
  | frameWrite a d => exact ⟨_, rfl, .frameWrite a d⟩
  | frameRead a d => exact ⟨_, rfl, .frameRead a d⟩
  | setFreq f => exact ⟨_, rfl, .host (((HostRun.start.write _ _).write _ _).give _)⟩
  | setSq q => exact ⟨_, rfl, .host (hostRun_setSqOn ..)⟩
  | setAgc en mode => exact ⟨_, rfl, .host (hostRun_setAgcOn ..)⟩
  | setTone hz => exact ⟨_, rfl, .host (hostRun_setToneOn ..)⟩
  | setCtcss cw => exact ⟨_, rfl, .host (hostRun_setCtcssOn ..)⟩
  | setCdcss code => exact ⟨_, rfl, .host (hostRun_setCdcssOn ..)⟩
  | getRssi => exact ⟨_, rfl, .host ((HostRun.start.read _).give _)⟩
  | setGain reg => exact ⟨_, rfl, .host ((HostRun.start.write _ _).give _)⟩
  | getGainDb => exact ⟨_, rfl, .host ((HostRun.start.read _).give _)⟩
  | fscanStart => exact ⟨_, rfl, .host ((HostRun.start.writeAll _).give _)⟩
  | fscanPoll => exact ⟨_, rfl, .host (HostRun.start.fscanPoll.give _)⟩
  | fscanWait => exact ⟨_, rfl, .host ((HostRun.start.fscanWait _).give _)⟩
  | cscanStart => exact ⟨_, rfl, .host ((HostRun.start.writeAll _).give _)⟩
  | cscanPoll => exact ⟨_, rfl, .host (HostRun.start.cscanPoll.give _)⟩
  | cscanWait => exact ⟨_, rfl, .host ((HostRun.start.cscanWait _).give _)⟩

theorem executed_of_exec {i : Instr} {s t : State} (h : exec i s = .next t) : Executed s i t := by
  obtain ⟨u, hu, executed⟩ := exec_executed i s
  cases h.symm.trans hu
  exact executed

end Sys2Proof.Machine
end

section
/-! SUPPORT, and the proofs of O46 to O49, O51 to O55 and O57. Each pseudo-operation in range as its bus commands, out of
range as the host's refusal, and its words bit by bit or as numbers (42 R143 to R171). -/

namespace Sys2Proof.Machine

/-! ## Lists of writes -/

@[simp] theorem writeAllOn_history (C : Config) (l : List RegWord) (s : State) :
    (writeAllOn C l s).history = s.history ++ writeEvents s.history.length l := by
  induction l generalizing s with
  | nil => exact (List.append_nil _).symm
  | cons r rest ih => simp [writeAllOn, writeEvents, ih]

@[simp] theorem writeAllOn_rxShift (C : Config) (l : List RegWord) (s : State) :
    (writeAllOn C l s).rxShift = s.rxShift := by
  induction l generalizing s with
  | nil => rfl
  | cons r rest ih => rw [writeAllOn, ih, busWriteOn_rxShift]

/-- The response after a list of writes is the last one's, and every write has the same. -/
theorem writeAllOn_cons_rsp (C : Config) (r : RegWord) (l : List RegWord) (s : State) :
    (writeAllOn C (r :: l) s).rsp = ⟨true, .ok, 0#16⟩ := by
  induction l generalizing r s with
  | nil => exact busWriteOn_rsp ..
  | cons r' rest ih => exact ih r' _

/-- Settles O53: an enable sequence is a list of writes. -/
theorem scanStartsComplete : Obligations.ScanStartsComplete := fun s =>
  ⟨⟨fscanStartOn Config.board s, rfl, writeAllOn_history .., writeAllOn_rxShift .., rfl,
    ((HostRun.start.writeAll _).give _).sameAgc⟩,
   ⟨cscanStartOn Config.board s, rfl, writeAllOn_history .., writeAllOn_rxShift .., rfl,
    ((HostRun.start.writeAll _).give _).sameAgc⟩⟩

/-! ## SETSQ -/

theorem setSqOn_of_some {C : Config} {q : Squelch} {p : SquelchWrites} (h : C.sqPack q = some p) (s : State) :
    setSqOn C q s = (writeAllOn C [p.first, p.second, p.third, p.fourth] s).give .done := by
  rw [setSqOn, h]

theorem setSqOn_of_none {C : Config} {q : Squelch} (h : C.sqPack q = none) (s : State) :
    setSqOn C q s = hostRefuse s := by
  rw [setSqOn, h]

/-- Settles O46: in the domain of SQ_PACK a list of four writes, outside it the host's refusal. -/
theorem setSquelchCompletes : Obligations.SetSquelchCompletes := by
  intro q s
  refine ⟨setSqOn Config.board q s, rfl, ?_⟩
  have same := (hostRun_setSqOn Config.board q s).sameAgc
  split
  case h_1 p h =>
    rw [setSqOn_of_some h] at same ⊢
    exact ⟨writeAllOn_history .., writeAllOn_cons_rsp .., writeAllOn_rxShift .., rfl, same⟩
  case h_2 h => exact setSqOn_of_none h s

/-! ## SETAGC -/

theorem setAgcOn_in_range (C : Config) {en mode : Nat} (hen : en ≤ 1) (hmode : mode ≤ 7) (s : State) :
    setAgcOn C en mode s = (busWriteOn C C.agcCfgReg (agcCfgWord C (C.oracle C.agcCfgReg s.history) en mode)
      (busReadOn C C.agcCfgReg s)).give .done := by
  rw [setAgcOn, if_neg (by omega), busReadOn_rsp]

theorem setAgcOn_out_of_range (C : Config) {en mode : Nat} (h : 1 < en ∨ 7 < mode) (s : State) :
    setAgcOn C en mode s = hostRefuse s := by
  rw [setAgcOn, if_pos h]

/-- The bits of a field of `width` bits placed at bit `lsb`. -/
theorem getLsbD_placed {n width : Nat} (hn : n < 2 ^ width) (lsb : Nat) {k : Nat} (hk : k < 16) :
    (BitVec.ofNat 16 n <<< lsb).getLsbD k = (decide (lsb ≤ k ∧ k < lsb + width) && n.testBit (k - lsb)) := by
  rw [BitVec.getLsbD_shiftLeft, BitVec.getLsbD_ofNat]
  by_cases inside : lsb ≤ k ∧ k < lsb + width
  · have : k - lsb < 16 := by omega
    simp [inside, hk, this]
  · by_cases below : k < lsb
    · simp [below, inside]
    · have beyond : n.testBit (k - lsb) = false :=
        Nat.testBit_lt_two_pow (Nat.lt_of_lt_of_le hn (Nat.pow_le_pow_right (by decide) (by omega)))
      simp [beyond]

/-- SETAGC's word bit by bit: the two fields are the operands, every other bit is as read (42 R146). -/
theorem getLsbD_agcCfgWord (C : Config) (w : Word16) {en mode : Nat} (hen : en ≤ 1) (hmode : mode ≤ 7) {k : Nat}
    (hk : k < 16) : (agcCfgWord C w en mode).getLsbD k =
      if k = C.agcEnBit then en.testBit 0
      else if C.agcModeLsb ≤ k ∧ k < C.agcModeLsb + 3 then mode.testBit (k - C.agcModeLsb)
      else w.getLsbD k := by
  have enMask : (1#16 <<< C.agcEnBit).getLsbD k = _ := getLsbD_placed (n := 1) (width := 1) (by decide) _ hk
  have modeMask : (7#16 <<< C.agcModeLsb).getLsbD k = _ := getLsbD_placed (n := 7) (width := 3) (by decide) _ hk
  have enField := getLsbD_placed (n := en) (width := 1) (by omega) C.agcEnBit hk
  have modeField := getLsbD_placed (n := mode) (width := 3) (by omega) C.agcModeLsb hk
  have disjoint := C.agc_fields_disjoint
  simp only [agcCfgWord, BitVec.getLsbD_or, BitVec.getLsbD_and, BitVec.getLsbD_not, enMask, modeMask, enField, modeField]
  by_cases atEn : k = C.agcEnBit
  · subst atEn
    have : ¬(C.agcModeLsb ≤ C.agcEnBit ∧ C.agcEnBit < C.agcModeLsb + 3) := by omega
    simp [this]
  · have notEn : ¬(C.agcEnBit ≤ k ∧ k < C.agcEnBit + 1) := by omega
    by_cases inMode : C.agcModeLsb ≤ k ∧ k < C.agcModeLsb + 3
    · have seven : (7 : Nat).testBit (k - C.agcModeLsb) = true := by
        rw [show 7 = 2 ^ 3 - 1 from rfl, Nat.testBit_two_pow_sub_one]
        exact decide_eq_true (by omega)
      simp only [atEn, notEn, inMode, seven, hk]
      simp
    · simp only [atEn, notEn, inMode, hk]
      simp

/-- Settles O47: a read, and the write of `agcCfgWord`. -/
theorem setAgcReplacesTwoFields : Obligations.SetAgcReplacesTwoFields := by
  intro en mode s hen hmode B w
  refine ⟨setAgcOn B en mode s, agcCfgWord B w en mode, rfl, ?_⟩
  have same := (hostRun_setAgcOn B en mode s).sameAgc
  rw [setAgcOn_in_range B hen hmode] at same ⊢
  refine ⟨?history, fun k hk => getLsbD_agcCfgWord B w hen hmode hk, ?rsp, rfl, same⟩
  case history => simp [w]
  case rsp => simp

/-! ## SETTONE -/

theorem toneWord_fits_iff (hz : Nat) : toneWord hz ≤ 0xFFFF ↔ hz ≤ 6347 := by
  rw [toneWord]
  omega

theorem setToneOn_in_range (C : Config) {hz : Nat} (h : hz ≤ 6347) (s : State) :
    setToneOn C hz s = (busWriteOn C C.toneReg (BitVec.ofNat 16 (toneWord hz)) s).give .done := by
  rw [setToneOn, if_neg (Nat.not_lt.mpr ((toneWord_fits_iff hz).mpr h))]

theorem setToneOn_out_of_range (C : Config) {hz : Nat} (h : 6347 < hz) (s : State) : setToneOn C hz s = hostRefuse s := by
  rw [setToneOn, if_pos (Nat.not_le.mp (mt (toneWord_fits_iff hz).mp (Nat.not_le.mpr h)))]

/-- No tie occurs: `hz × 1353245` would be an odd multiple of 2^16, so `hz` a positive one (42 R150). -/
theorem tone_no_tie {hz w : Nat} (h : hz ≤ 6347) : hz * 1353245 + 2 ^ 16 ≠ w * 2 ^ 17 := by
  intro tie
  have multiple : 2 ^ 16 ∣ hz * 1353245 := by omega
  have hzero : hz = 0 :=
    Nat.eq_zero_of_dvd_of_lt (Nat.Coprime.dvd_of_dvd_mul_right (by decide) multiple) (Nat.lt_of_le_of_lt h (by decide))
  rw [hzero] at tie
  omega

/-- Rounding to a multiple of 2^17 with no tie. -/
theorem nearest_of_no_tie {n w : Nat} (lower : w * 2 ^ 17 ≤ n + 2 ^ 16) (upper : n + 2 ^ 16 < (w + 1) * 2 ^ 17)
    (noTie : n + 2 ^ 16 ≠ w * 2 ^ 17) :
    2 * (w * 2 ^ 17) < 2 * n + 2 ^ 17 ∧ 2 * n + 2 ^ 17 < 2 * ((w + 1) * 2 ^ 17) := by
  omega

/-- The tone word is the nearest integer (42 R150). -/
theorem toneWord_nearest {hz : Nat} (h : hz ≤ 6347) : 2 * (toneWord hz * 2 ^ 17) < 2 * (hz * 1353245) + 2 ^ 17 ∧
    2 * (hz * 1353245) + 2 ^ 17 < 2 * ((toneWord hz + 1) * 2 ^ 17) := by
  rw [toneWord]
  exact nearest_of_no_tie (Nat.div_mul_le_self _ _) (Nat.lt_mul_of_div_lt (Nat.lt_succ_self _) (by decide)) (tone_no_tie h)

/-- Settles O48: one write of the tone word. -/
theorem setToneWritesTheRoundedWord : Obligations.SetToneWritesTheRoundedWord := by
  intro hz s h
  have word : (BitVec.ofNat 16 (toneWord hz)).toNat = toneWord hz := by
    rw [BitVec.toNat_ofNat, Nat.mod_eq_of_lt (Nat.lt_succ_of_le ((toneWord_fits_iff hz).mpr h))]
  obtain ⟨above, below⟩ := toneWord_nearest h
  refine ⟨setToneOn Config.board hz s, BitVec.ofNat 16 (toneWord hz), rfl, by rwa [word], by rwa [word], ?_⟩
  have same := (hostRun_setToneOn Config.board hz s).sameAgc
  rw [setToneOn_in_range _ h] at same ⊢
  refine ⟨?history, ?rsp, ?rxShift, rfl, same⟩
  case history => simp
  case rsp => simp
  case rxShift => simp

/-! ## SETCTCSS -/

theorem ctcssDiv_fits_iff (cw : Nat) : ctcssDiv cw ≤ 0xFFFF ↔ cw ≤ 31738 := by
  rw [ctcssDiv]
  omega

/-- SETCTCSS in the decided reading (D33). -/
theorem setCtcssOn_board_in_range {cw : Nat} (h : cw ≤ 31738) (s : State) : setCtcssOn Config.board cw s =
    (busWriteOn Config.board Config.board.ctcssReg (Config.board.ctcssWord (BitVec.ofNat 16 (ctcssDiv cw)))
      (busWriteOn Config.board Config.board.ctcssCfgReg
        (if cw = 2625 then Config.board.ctcssCfgErratum else Config.board.ctcssCfgNormal) s)).give .done := by
  rw [setCtcssOn, if_neg (Nat.not_lt.mpr ((ctcssDiv_fits_iff cw).mpr h))]
  rfl

theorem setCtcssOn_out_of_range (C : Config) {cw : Nat} (h : 31738 < cw) (s : State) :
    setCtcssOn C cw s = hostRefuse s := by
  rw [setCtcssOn, if_pos (Nat.not_le.mp (mt (ctcssDiv_fits_iff cw).mp (Nat.not_le.mpr h)))]

/-- Settles O49: the configuration write, and then the write of the divisor's word. -/
theorem setCtcssWritesConfigThenDivisor : Obligations.SetCtcssWritesConfigThenDivisor := by
  intro cw s h B
  have word : (BitVec.ofNat 16 (ctcssDiv cw)).toNat = ctcssDiv cw := by
    rw [BitVec.toNat_ofNat, Nat.mod_eq_of_lt (Nat.lt_succ_of_le ((ctcssDiv_fits_iff cw).mpr h))]
  obtain ⟨above, below⟩ := ctcssDiv_bounds cw
  refine ⟨setCtcssOn B cw s, BitVec.ofNat 16 (ctcssDiv cw), rfl, by rw [word]; omega, by rw [word]; omega, ?_⟩
  have same := (hostRun_setCtcssOn B cw s).sameAgc
  rw [setCtcssOn_board_in_range h] at same ⊢
  refine ⟨?history, ?rsp, ?rxShift, rfl, same⟩
  case history => simp [B]
  case rsp => simp
  case rxShift => simp

/-! ## SETCDCSS -/

theorem setCdcssOn_in_range (C : Config) {code : Nat} (h : code < 2 ^ 23) (s : State) : setCdcssOn C code s =
    (busWriteOn C C.cdcssReg (cdcssHigh C (BitVec.ofNat 23 code))
      (busWriteOn C C.cdcssReg (cdcssLow C (BitVec.ofNat 23 code)) s)).give .done := by
  rw [setCdcssOn, if_neg (Nat.not_le.mpr h)]

theorem setCdcssOn_out_of_range (C : Config) {code : Nat} (h : 2 ^ 23 ≤ code) (s : State) :
    setCdcssOn C code s = hostRefuse s := by
  rw [setCdcssOn, if_pos h]

theorem toNat_cdcssLow (C : Config) (code : BitVec 23) : (cdcssLow C code).toNat = code.toNat % 4096 := by
  simp [cdcssLow, toNat_bitsOf]
  omega

/-- The select bit stands above the eleven bits of the high half (42 R156). -/
theorem toNat_cdcssHigh (C : Config) (code : BitVec 23) :
    (cdcssHigh C code).toNat = code.toNat / 4096 + 2 ^ C.cdcssSelBit := by
  obtain ⟨selLow, selHigh⟩ := C.cdcss_sel_range
  have half : ((bitsOf code 12 11).zeroExtend 16).toNat = code.toNat / 4096 := by
    have := code.isLt
    rw [BitVec.toNat_setWidth, toNat_bitsOf]
    omega
  have select : (1#16 <<< C.cdcssSelBit).toNat = 2 ^ C.cdcssSelBit := by
    rw [BitVec.toNat_shiftLeft, BitVec.toNat_ofNat, Nat.one_mod, Nat.shiftLeft_eq, Nat.one_mul]
    exact Nat.mod_eq_of_lt (Nat.pow_lt_pow_right (by decide) (by omega))
  have small : code.toNat / 4096 < 2 ^ C.cdcssSelBit :=
    calc code.toNat / 4096 < 2 ^ 12 := by have := code.isLt; omega
      _ ≤ 2 ^ C.cdcssSelBit := Nat.pow_le_pow_right (by decide) selLow
  have disjoint := Nat.two_pow_add_eq_or_of_lt small 1
  rw [Nat.mul_one] at disjoint
  rw [cdcssHigh, BitVec.toNat_or, half, select, Nat.or_comm, ← disjoint, Nat.add_comm]

/-- Settles O51: two writes, and the two halves as numbers. -/
theorem setCdcssWritesTheTwoHalves : Obligations.SetCdcssWritesTheTwoHalves := by
  intro code s h B
  have word : (BitVec.ofNat 23 code).toNat = code := Nat.mod_eq_of_lt h
  refine ⟨setCdcssOn B code s, cdcssLow B (BitVec.ofNat 23 code), cdcssHigh B (BitVec.ofNat 23 code), rfl,
    by rw [toNat_cdcssLow, word], by rw [toNat_cdcssHigh, word], ?_⟩
  have same := (hostRun_setCdcssOn B code s).sameAgc
  rw [setCdcssOn_in_range B h] at same ⊢
  refine ⟨?history, ?rsp, ?rxShift, rfl, same⟩
  case history => simp
  case rsp => simp
  case rxShift => simp

/-! ## RSSI and gain -/

theorem rssiField_eq (C : Config) (w : Word16) : rssiField C w = w.toNat / 2 ^ C.rssiLsb % 2 ^ C.rssiWidth := by
  rw [rssiField, Nat.and_two_pow_sub_one_eq_mod, Nat.shiftRight_eq_div_pow]

theorem getRssiOn_hostResult (C : Config) (s : State) :
    (getRssiOn C s).hostResult = .rssi (rssiField C (C.oracle C.rssiReg s.history)) := by
  simp [getRssiOn]

theorem getGainDbOn_hostResult (C : Config) (s : State) :
    (getGainDbOn C s).hostResult = .gainDb (gainDecode C (C.oracle C.gainReg s.history)) := by
  simp [getGainDbOn]

/-- A table entry's word decodes to its gain (93 section 3). -/
theorem gainDecode_gainEntry (C : Config) {i : Nat} (hi : i < gainTableLen) :
    gainDecode C (gainEntry C i).reg = (gainEntry C i).gain := by
  rw [gainDecode_eq_stageGain]
  exact C.stages_consistent i hi

/-- Settles O52: one bus command each, and what the host makes of the word read. -/
theorem rssiAndGainAccessComplete : Obligations.RssiAndGainAccessComplete := by
  refine ⟨fun C s => ⟨fun i hi hw => ?entry, fun hw => ?base⟩, fun s => ?onBoard⟩
  case entry => rw [getGainDbOn_hostResult, hw, gainDecode_gainEntry C hi]
  case base =>
    have decoded := gainDecode_gainEntry C (i := 0) (by decide)
    rw [gainEntry_base] at decoded
    rw [getGainDbOn_hostResult, hw, decoded]
  case onBoard =>
    intro B
    refine ⟨?rssi, fun reg => ?write, ?gain⟩
    case rssi =>
      exact ⟨getRssiOn B s, rfl, (getRssiOn_hostResult B s).trans (by rw [rssiField_eq]), busReadOn_history ..,
        busReadOn_rsp .., ((HostRun.start.read _).give _).sameAgc⟩
    case write =>
      exact ⟨setGainOn B reg s, rfl, rfl, busWriteOn_history .., busWriteOn_rxShift ..,
        busWriteOn_rsp B B.gainReg reg s, ((HostRun.start.write _ _).give _).sameAgc⟩
    case gain =>
      exact ⟨getGainDbOn B s, _, rfl, getGainDbOn_hostResult B s, gainDecode_eq_stageGain .., busReadOn_history ..,
        busReadOn_rsp .., ((HostRun.start.read _).give _).sameAgc⟩

/-! ## Scan polls -/

theorem fscanPollRun_busy {C : Config} {s : State} (h : C.fscanDone (C.oracle C.fscanR1 s.history) = false) :
    fscanPollRun C s = (busReadOn C C.fscanR1 s, .busy) := by
  simp [fscanPollRun, h]

theorem fscanPollRun_done {C : Config} {s : State} (h : C.fscanDone (C.oracle C.fscanR1 s.history) = true) :
    fscanPollRun C s =
      let r1 := C.oracle C.fscanR1 s.history
      let r2 := C.oracle C.fscanR2 (busReadOn C C.fscanR1 s).history
      (busReadOn C C.fscanR2 (busReadOn C C.fscanR1 s),
        if C.fscanHit r1 r2 then .found (C.fscanValue r1 r2) else .notFound) := by
  simp [fscanPollRun, h]

theorem cscanPollRun_hit {C : Config} {s : State} (h : C.cdcssHit (C.oracle C.cscanR1 s.history) = true) :
    cscanPollRun C s =
      let r1 := C.oracle C.cscanR1 s.history
      let r2 := C.oracle C.cscanR2 (busReadOn C C.cscanR1 s).history
      (busReadOn C C.cscanR2 (busReadOn C C.cscanR1 s), .foundCdcss (C.cdcssValue r1 r2)) := by
  simp [cscanPollRun, h]

theorem cscanPollRun_no_hit {C : Config} {s : State} (h : C.cdcssHit (C.oracle C.cscanR1 s.history) = false) :
    cscanPollRun C s =
      let r3 := C.oracle C.cscanR3 (busReadOn C C.cscanR1 s).history
      (busReadOn C C.cscanR3 (busReadOn C C.cscanR1 s),
        if C.ctcssHit r3 then .foundCtcss (C.ctcssValue r3) else .notFound) := by
  simp [cscanPollRun, h]

/-- Settles O54: a busy poll stops after its first read. -/
theorem fscanPollCompletes : Obligations.FscanPollCompletes := by
  intro s B r1 h1 r2
  refine ⟨fscanPollOn B s, rfl, (HostRun.start.fscanPoll.give _).sameAgc, ?_⟩
  split
  case isTrue done => simp [fscanPollOn, fscanPollRun_done (C := B) (s := s) done, r1, h1, r2]
  case isFalse busy =>
    simp [fscanPollOn, fscanPollRun_busy (C := B) (s := s) (Bool.eq_false_iff.mpr busy), r1, h1]

/-- Settles O55: a hit or not, a second read follows the first. -/
theorem cscanPollCompletes : Obligations.CscanPollCompletes := by
  intro s B r1 h1 r2 r3
  refine ⟨cscanPollOn B s, rfl, (HostRun.start.cscanPoll.give _).sameAgc, ?_⟩
  split
  case isTrue hit => simp [cscanPollOn, cscanPollRun_hit (C := B) (s := s) hit, r1, h1, r2]
  case isFalse noHit =>
    simp [cscanPollOn, cscanPollRun_no_hit (C := B) (s := s) (Bool.eq_false_iff.mpr noHit), r1, h1, r3]

/-! ## Operands out of range -/

/-- The host's refusal of 42 R171, whichever the operand. -/
theorem exec_of_not_wf {i : Instr} (h : i.wf Config.board = false) (s : State) :
    exec i s = .next { s with hostResult := .refused } := by
  cases i with
  | setSq q => exact congrArg Host.Outcome.next (setSqOn_of_none (by simpa [Instr.wf] using h) s)
  | setAgc en mode =>
    exact congrArg Host.Outcome.next (setAgcOn_out_of_range _ (by simp [Instr.wf] at h; omega) s)
  | setTone hz => exact congrArg Host.Outcome.next (setToneOn_out_of_range _ (by simpa [Instr.wf] using h) s)
  | setCtcss cw => exact congrArg Host.Outcome.next (setCtcssOn_out_of_range _ (by simpa [Instr.wf] using h) s)
  | setCdcss code => exact congrArg Host.Outcome.next (setCdcssOn_out_of_range _ (by simpa [Instr.wf] using h) s)
  | _ => cases h

/-- In range the host gets a completion or a result. -/
theorem exec_of_wf {i : Instr} (h : i.wf Config.board = true) (pseudo : isPseudo i = true) (s : State) :
    ∃ t, exec i s = .next t ∧ t.hostResult ≠ .refused := by
  cases i with
  | setSq q =>
    obtain ⟨p, hp⟩ := Option.isSome_iff_exists.mp h
    exact ⟨_, congrArg Host.Outcome.next (setSqOn_of_some hp s), nofun⟩
  | setAgc en mode =>
    obtain ⟨hen, hmode⟩ : en ≤ 1 ∧ mode ≤ 7 := by simpa [Instr.wf] using h
    exact ⟨_, congrArg Host.Outcome.next (setAgcOn_in_range _ hen hmode s), nofun⟩
  | setTone hz => exact ⟨_, congrArg Host.Outcome.next (setToneOn_in_range _ (by simpa [Instr.wf] using h) s), nofun⟩
  | setCtcss cw =>
    exact ⟨_, congrArg Host.Outcome.next (setCtcssOn_board_in_range (by simpa [Instr.wf] using h) s), nofun⟩
  | setCdcss code =>
    exact ⟨_, congrArg Host.Outcome.next (setCdcssOn_in_range _ (by simpa [Instr.wf] using h) s), nofun⟩
  | busWrite | busRead | agcTick | frameWrite | frameRead => cases pseudo
  | _ => exact ⟨_, rfl, nofun⟩

/-- Settles O57: both halves, instruction by instruction. -/
theorem outOfRangeOperandIsRefusedByTheHost : Obligations.OutOfRangeOperandIsRefusedByTheHost :=
  fun _ s => ⟨fun h => exec_of_not_wf h s, fun h pseudo => exec_of_wf h pseudo s⟩

end Sys2Proof.Machine
end

section
/-! SUPPORT, and the proof of O56. A bounded wait over any poll, said once for the two scans: it is a run of polls, each but
the last to be polled again, and it only reads (42 R163, R166, R168). -/

namespace Sys2Proof.Machine

/-! ## A read and a result to the host commute -/

theorem busReadOn_give (C : Config) (a : Addr) (r : HostResult) (s : State) :
    busReadOn C a (s.give r) = (busReadOn C a s).give r := by
  rw [busReadOn_eq, busReadOn_eq]
  rfl

theorem fscanPollRun_give (C : Config) (r : HostResult) (s : State) :
    fscanPollRun C (s.give r) = ((fscanPollRun C s).1.give r, (fscanPollRun C s).2) := by
  cases h : C.fscanDone (C.oracle C.fscanR1 s.history) with
  | true => rw [fscanPollRun_done (s := s.give r) h, fscanPollRun_done h]; simp [busReadOn_give]
  | false => rw [fscanPollRun_busy (s := s.give r) h, fscanPollRun_busy h, busReadOn_give]

theorem cscanPollRun_give (C : Config) (r : HostResult) (s : State) :
    cscanPollRun C (s.give r) = ((cscanPollRun C s).1.give r, (cscanPollRun C s).2) := by
  cases h : C.cdcssHit (C.oracle C.cscanR1 s.history) with
  | true => rw [cscanPollRun_hit (s := s.give r) h, cscanPollRun_hit h]; simp [busReadOn_give]
  | false => rw [cscanPollRun_no_hit (s := s.give r) h, cscanPollRun_no_hit h]; simp [busReadOn_give]

/-! ## Reads only -/

/-- From `s` to `t` the host has read `n` times and done nothing else on the bus. -/
def ReadsOnly (n : Nat) (s t : State) : Prop :=
  ∃ l : List Event, l.length = n ∧ t.history = s.history ++ l ∧ ∀ e ∈ l, e.kind = .rd ∧ e.origin = .host

theorem ReadsOnly.trans {m n : Nat} {s t u : State} (h : ReadsOnly m s t) (k : ReadsOnly n t u) :
    ReadsOnly (m + n) s u := by
  obtain ⟨l, rfl, hl, reads⟩ := h
  obtain ⟨l', rfl, hl', reads'⟩ := k
  refine ⟨l ++ l', List.length_append, by rw [hl', hl, List.append_assoc], fun e he => ?_⟩
  rcases List.mem_append.mp he with first | second
  · exact reads e first
  · exact reads' e second

theorem readsOnly_busReadOn (C : Config) (a : Addr) (s : State) : ReadsOnly 1 s (busReadOn C a s) :=
  ⟨[⟨s.history.length, .rd, a, C.oracle a s.history, .host⟩], rfl, busReadOn_history .., by simp⟩

/-- A busy frequency poll is one read, a complete one two (42 R163). -/
theorem readsOnly_fscanPollRun (C : Config) (s : State) :
    ReadsOnly (if (fscanPollRun C s).2 = .busy then 1 else 2) s (fscanPollRun C s).1 := by
  cases h : C.fscanDone (C.oracle C.fscanR1 s.history) with
  | true =>
    rw [fscanPollRun_done h, if_neg (by dsimp only; split <;> nofun)]
    exact (readsOnly_busReadOn ..).trans (readsOnly_busReadOn ..)
  | false =>
    rw [fscanPollRun_busy h, if_pos rfl]
    exact readsOnly_busReadOn ..

/-- A code poll is two reads (42 R166). -/
theorem readsOnly_cscanPollRun (C : Config) (s : State) : ReadsOnly 2 s (cscanPollRun C s).1 := by
  cases h : C.cdcssHit (C.oracle C.cscanR1 s.history) with
  | true =>
    rw [cscanPollRun_hit h]
    exact (readsOnly_busReadOn ..).trans (readsOnly_busReadOn ..)
  | false =>
    rw [cscanPollRun_no_hit h]
    exact (readsOnly_busReadOn ..).trans (readsOnly_busReadOn ..)

/-! ## A bounded wait -/

section
variable {ρ : Type} [DecidableEq ρ]

/-- At most `n` polls `run` while the result is `again`, and then `timeout`: the shape of both scan waits (42 R168). -/
def waitRun (run : State → State × ρ) (again timeout : ρ) : Nat → State → State × ρ
  | 0, s => (s, timeout)
  | n + 1, s => if (run s).2 = again then waitRun run again timeout n (run s).1 else run s

theorem fscanWaitRun_eq (C : Config) (n : Nat) (s : State) :
    fscanWaitRun C n s = waitRun (fscanPollRun C) .busy .timeout n s := by
  induction n generalizing s with
  | zero => rfl
  | succ n ih => rw [fscanWaitRun, waitRun, ih]

theorem cscanWaitRun_eq (C : Config) (n : Nat) (s : State) :
    cscanWaitRun C n s = waitRun (cscanPollRun C) .notFound .timeout n s := by
  induction n generalizing s with
  | zero => rfl
  | succ n ih => rw [cscanWaitRun, waitRun, ih]

/-- A run of the machine with its result given to the host. -/
def given (wrap : ρ → HostResult) (run : State → State × ρ) (s : State) : State := (run s).1.give (wrap (run s).2)

variable {run : State → State × ρ} {again timeout : ρ} {wrap : ρ → HostResult} {a b : Nat}
  (commutes : ∀ r s, run (s.give r) = ((run s).1.give r, (run s).2))
  (distinct : ∀ r, wrap r = wrap again → r = again)
  (reads : ∀ s, ReadsOnly (if (run s).2 = again then a else b) s (run s).1)

include commutes in
theorem waitRun_give (n : Nat) (r : HostResult) (s : State) : waitRun run again timeout n (s.give r)
    = ((waitRun run again timeout n s).1.give r, (waitRun run again timeout n s).2) := by
  induction n generalizing s with
  | zero => rfl
  | succ n ih =>
    rw [waitRun, waitRun, commutes]
    split
    · exact ih _
    · rfl

include commutes in
/-- What the polls before the last one gave the host leaves no trace. -/
theorem given_waitRun_give (n : Nat) (r : HostResult) (s : State) :
    given wrap (waitRun run again timeout n) (s.give r) = given wrap (waitRun run again timeout n) s := by
  rw [given, waitRun_give commutes]
  rfl

theorem given_waitRun_of_final {s : State} (h : (run s).2 ≠ again) (n : Nat) :
    given wrap (waitRun run again timeout (n + 1)) s = given wrap run s := by
  rw [given, waitRun, if_neg h, given]

include commutes in
theorem given_waitRun_of_again {s : State} (h : (run s).2 = again) (n : Nat) :
    given wrap (waitRun run again timeout (n + 1)) s = given wrap (waitRun run again timeout n) (given wrap run s) := by
  refine Eq.trans ?_ (given_waitRun_give commutes n _ _).symm
  rw [given, waitRun, if_pos h, given]

include commutes distinct reads in
/-- A wait is a run of `k + 1` polls, each but the last to be polled again: either the last is final, and the wait is that
poll, or all polls are used up, and only the result differs (42 R163, R166, R168). -/
theorem waitRun_is_polls (n : Nat) (s : State) :
    let poll := given wrap run
    let t := given wrap (waitRun run again timeout (n + 1)) s
    ∃ k ≤ n, (∀ j, 1 ≤ j → j ≤ k → (poll^[j] s).hostResult = wrap again) ∧
      (((poll^[k + 1] s).hostResult ≠ wrap again ∧ t = poll^[k + 1] s ∧ ReadsOnly (k * a + b) s t) ∨
       (k = n ∧ (poll^[k + 1] s).hostResult = wrap again ∧ t = (poll^[k + 1] s).give (wrap timeout) ∧
        ReadsOnly (k * a + a) s t)) := by
  intro poll t
  have first := reads s
  by_cases hagain : (run s).2 = again
  case neg =>
    have final : t = poll s := given_waitRun_of_final hagain n
    rw [if_neg hagain] at first
    refine ⟨0, Nat.zero_le n, fun j _ _ => by omega, .inl ⟨mt (distinct _) hagain, final, ?_⟩⟩
    rw [final, Nat.zero_mul, Nat.zero_add]
    exact first
  case pos =>
    have polled : (poll s).hostResult = wrap again := congrArg wrap hagain
    have rest : t = given wrap (waitRun run again timeout n) (poll s) := given_waitRun_of_again commutes hagain n
    rw [if_pos hagain] at first
    cases n with
    | zero =>
      refine ⟨0, Nat.le_refl 0, fun j _ _ => by omega, .inr ⟨rfl, polled, rest, ?_⟩⟩
      rw [rest, Nat.zero_mul, Nat.zero_add]
      exact first
    | succ n =>
      obtain ⟨k, hkn, busy, outcome⟩ := waitRun_is_polls n (poll s)
      rw [← rest] at outcome
      refine ⟨k + 1, Nat.succ_le_succ hkn, fun j hj hjk => ?_, ?_⟩
      · rcases Nat.eq_or_lt_of_le hj with rfl | later
        · exact polled
        · obtain ⟨j, rfl⟩ := Nat.exists_eq_add_of_lt later
          exact busy (1 + j) (by omega) (by omega)
      · have count (c : Nat) : (k + 1) * a + c = a + (k * a + c) := by ring
        rw [count, count]
        rcases outcome with ⟨final, same, history⟩ | ⟨all, last, same, history⟩
        · exact .inl ⟨final, same, ReadsOnly.trans first history⟩
        · exact .inr ⟨congrArg _ all, last, same, ReadsOnly.trans first history⟩

end

/-- Settles O56: both scans are waits of `waitRun`. -/
theorem scanWaitsAreBounded : Obligations.ScanWaitsAreBounded := by
  intro s B
  obtain ⟨n, hn⟩ : ∃ n, B.pollLimit = n + 1 := ⟨B.pollLimit - 1, (Nat.sub_add_cancel B.poll_pos).symm⟩
  refine ⟨?fscan, ?cscan⟩
  case fscan =>
    obtain ⟨k, hkn, busy, outcome⟩ := waitRun_is_polls (timeout := FscanResult.timeout) (fscanPollRun_give B)
      (fun r h => HostResult.fscan.inj h) (readsOnly_fscanPollRun B) n s
    have wait : given .fscan (waitRun (fscanPollRun B) .busy .timeout (n + 1)) s = fscanWaitOn B s := by
      rw [given, fscanWaitOn, fscanWaitRun_eq, hn]
    have polls (j : Nat) : exec .fscanPoll ((fscanPollOn B)^[j] s) = .next ((fscanPollOn B)^[j + 1] s) := by
      rw [Function.iterate_succ_apply']
      rfl
    have same := ((HostRun.start (C := B) (s := s)).fscanWait B.pollLimit).give (.fscan (fscanWaitRun B B.pollLimit s).2)
    rw [wait] at outcome
    rcases outcome with ⟨final, last, l, count, history, reads⟩ | ⟨all, final, last, l, count, history, reads⟩
    · exact ⟨k + 1, fun j => (fscanPollOn B)^[j] s, _, l, rfl, same.sameAgc, rfl, Nat.succ_pos k,
        by omega, fun j _ => polls j, fun j hj hjk => busy j hj (Nat.le_of_lt_succ hjk),
        .inl ⟨final, last, by omega⟩, history, reads⟩
    · exact ⟨k + 1, fun j => (fscanPollOn B)^[j] s, _, l, rfl, same.sameAgc, rfl, Nat.succ_pos k,
        by omega, fun j _ => polls j, fun j hj hjk => busy j hj (Nat.le_of_lt_succ hjk),
        .inr ⟨by omega, final, last, by omega⟩, history, reads⟩
  case cscan =>
    obtain ⟨k, hkn, busy, outcome⟩ := waitRun_is_polls (timeout := CscanResult.timeout) (a := 2) (b := 2)
      (cscanPollRun_give B) (fun r h => HostResult.cscan.inj h)
      (fun s => by rw [ite_self]; exact readsOnly_cscanPollRun B s) n s
    have wait : given .cscan (waitRun (cscanPollRun B) .notFound .timeout (n + 1)) s = cscanWaitOn B s := by
      rw [given, cscanWaitOn, cscanWaitRun_eq, hn]
    have polls (j : Nat) : exec .cscanPoll ((cscanPollOn B)^[j] s) = .next ((cscanPollOn B)^[j + 1] s) := by
      rw [Function.iterate_succ_apply']
      rfl
    have same := ((HostRun.start (C := B) (s := s)).cscanWait B.pollLimit).give (.cscan (cscanWaitRun B B.pollLimit s).2)
    rw [wait] at outcome
    rcases outcome with ⟨final, last, l, count, history, reads⟩ | ⟨all, final, last, l, count, history, reads⟩
    · exact ⟨k + 1, fun j => (cscanPollOn B)^[j] s, _, l, rfl, same.sameAgc, rfl, Nat.succ_pos k,
        by omega, fun j _ => polls j, fun j hj hjk => busy j hj (Nat.le_of_lt_succ hjk),
        .inl ⟨final, last⟩, by omega, history, reads⟩
    · exact ⟨k + 1, fun j => (cscanPollOn B)^[j] s, _, l, rfl, same.sameAgc, rfl, Nat.succ_pos k,
        by omega, fun j _ => polls j, fun j hj hjk => busy j hj (Nat.le_of_lt_succ hjk),
        .inr ⟨by omega, final, last⟩, by omega, history, reads⟩

end Sys2Proof.Machine
end

section
/-! SUPPORT, and the proofs of O31 and O34 to O36. What each part of a receiving tick does to each field, the tick whole, and
what follows from it: who changes a tracker, what a frequency change forgets, what the readouts show (43 R190 to R208). -/

namespace Sys2Proof.Machine

/-! ## The gain write's transaction -/

@[simp] theorem regWrite_history (C : Config) (a : Addr) (d : Word16) (o : Origin) (s : State) :
    (regWrite C a d o s).history = s.history ++ [⟨s.history.length, .wr, a, d, o⟩] := by rw [regWrite_eq]
@[simp] theorem regWrite_pins (C : Config) (a : Addr) (d : Word16) (o : Origin) (s : State) :
    (regWrite C a d o s).pins = ⟨csLevel C false, false, d.getLsbD 0, true⟩ := by
  rw [regWrite_eq, ← frameBit_writeFrame_last a d]
@[simp] theorem regWrite_rxShift (C : Config) (a : Addr) (d : Word16) (o : Origin) (s : State) :
    (regWrite C a d o s).rxShift = s.rxShift := by rw [regWrite_eq]
@[simp] theorem regWrite_txFrame (C : Config) (a : Addr) (d : Word16) (o : Origin) (s : State) :
    (regWrite C a d o s).txFrame = writeFrame a d := rfl
@[simp] theorem regWrite_cmdLatch (C : Config) (a : Addr) (d : Word16) (o : Origin) (s : State) :
    (regWrite C a d o s).cmdLatch = s.cmdLatch := rfl
@[simp] theorem regWrite_agcRaw (C : Config) (a : Addr) (d : Word16) (o : Origin) (s : State) :
    (regWrite C a d o s).agcRaw = s.agcRaw := rfl
@[simp] theorem regWrite_devUndefined (C : Config) (a : Addr) (d : Word16) (o : Origin) (s : State) :
    (regWrite C a d o s).devUndefined = s.devUndefined := rfl
@[simp] theorem regWrite_port (C : Config) (a : Addr) (d : Word16) (o : Origin) (s : State) :
    (regWrite C a d o s).port = s.port := rfl
@[simp] theorem regWrite_hostResult (C : Config) (a : Addr) (d : Word16) (o : Origin) (s : State) :
    (regWrite C a d o s).hostResult = s.hostResult := rfl
@[simp] theorem regWrite_trk (C : Config) (a : Addr) (d : Word16) (o : Origin) (s : State) (v : Vfo) :
    (regWrite C a d o s).trk v = s.trk v := transact_trk ..
@[simp] theorem regWrite_lastFreq (C : Config) (a : Addr) (d : Word16) (o : Origin) (s : State) (v : Vfo) :
    (regWrite C a d o s).lastFreq v = s.lastFreq v := transact_lastFreq ..

/-! ## The RSSI read of step 2 -/

@[simp] theorem agcReadRssi_history (C : Config) (v : Vfo) (s : State) : (agcReadRssi C v s).history
    = s.history ++ [⟨s.history.length, .rd, C.rssiReg, C.oracle C.rssiReg s.history, .agc v⟩] := by
  rw [agcReadRssi, regRead_eq]
@[simp] theorem agcReadRssi_rxShift (C : Config) (v : Vfo) (s : State) :
    (agcReadRssi C v s).rxShift = C.oracle C.rssiReg s.history := by rw [agcReadRssi, regRead_eq]
@[simp] theorem agcReadRssi_agcRaw (C : Config) (v : Vfo) (s : State) :
    (agcReadRssi C v s).agcRaw = C.oracle C.rssiReg s.history := by rw [agcReadRssi, regRead_eq]
@[simp] theorem agcReadRssi_cmdLatch (C : Config) (v : Vfo) (s : State) :
    (agcReadRssi C v s).cmdLatch = s.cmdLatch := rfl
@[simp] theorem agcReadRssi_devUndefined (C : Config) (v : Vfo) (s : State) :
    (agcReadRssi C v s).devUndefined = s.devUndefined := rfl
@[simp] theorem agcReadRssi_port (C : Config) (v : Vfo) (s : State) : (agcReadRssi C v s).port = s.port := rfl
@[simp] theorem agcReadRssi_hostResult (C : Config) (v : Vfo) (s : State) :
    (agcReadRssi C v s).hostResult = s.hostResult := rfl
@[simp] theorem agcReadRssi_trk (C : Config) (v u : Vfo) (s : State) : (agcReadRssi C v s).trk u = s.trk u := by
  cases u <;> rfl
@[simp] theorem agcReadRssi_lastFreq (C : Config) (v u : Vfo) (s : State) :
    (agcReadRssi C v s).lastFreq u = s.lastFreq u := by cases u <;> rfl

/-! ## Step 1, steps 2 to 7 and step 8, on the tracker of the tick and on the other -/

theorem agcStep1_trk_other {v u : Vfo} (h : u ≠ v) (f : Word32) (s : State) : (agcStep1 v f s).trk u = s.trk u := by
  unfold agcStep1
  split
  · rfl
  · rw [State.setTrk_trk_other _ _ h, State.setLastFreq_trk]

theorem agcStep1_lastFreq_other {v u : Vfo} (h : u ≠ v) (f : Word32) (s : State) :
    (agcStep1 v f s).lastFreq u = s.lastFreq u := by
  unfold agcStep1
  split
  · rfl
  · rw [State.setTrk_lastFreq, State.setLastFreq_other _ _ h]

@[simp] theorem agcComputeOn_trk_self (C : Config) (v : Vfo) (s : State) :
    (agcComputeOn C v s).trk v = agcCompute C (rssiField C s.agcRaw) (s.trk v) := State.setTrk_trk_self ..

theorem agcComputeOn_trk_other (C : Config) {v u : Vfo} (h : u ≠ v) (s : State) :
    (agcComputeOn C v s).trk u = s.trk u := State.setTrk_trk_other _ _ h

theorem agcApply_trk_other (C : Config) {v u : Vfo} (h : u ≠ v) (s : State) : (agcApply C v s).trk u = s.trk u := by
  have kept := State.setTrk_trk_other s { s.trk v with prevIdx := some (s.trk v).idx } h
  cases u <;> exact kept

/-- Unless AGC_WRITE_ON_CHANGE is set, step 8 writes in every tick (D21). -/
theorem agcWrites_board (t : Tracker) : agcWrites Config.board t = true := rfl

theorem agcStep8_of_writes {C : Config} {v : Vfo} {s : State} (h : agcWrites C (s.trk v) = true) :
    agcStep8 C v s = agcApply C v (regWrite C C.gainReg (gainEntry C (s.trk v).idx).reg (.agc v) s) := if_pos h

theorem agcStep8_of_no_write {C : Config} {v : Vfo} {s : State} (h : agcWrites C (s.trk v) = false) :
    agcStep8 C v s = s := if_neg (Bool.eq_false_iff.mp h)

/-! ## A receiving tick, whole -/

/-- The word that a tick reads (43 R192). -/
def tickReading (C : Config) (s : State) : Word16 := C.oracle C.rssiReg s.history

/-- The tracker after step 7 of a tick (43 R191 to R197). -/
def tickTracker (C : Config) (v : Vfo) (f : Word32) (s : State) : Tracker :=
  agcCompute C (rssiField C (tickReading C s)) (if s.lastFreq v = some f then s.trk v else trackerFreqReset (s.trk v))

/-- A tick up to its COMPUTE cycle. -/
def tickComputed (C : Config) (v : Vfo) (f : Word32) (s : State) : State :=
  agcComputeOn C v (agcReadRssi C v (agcStep1 v f s))

theorem agcRun_eq (C : Config) (v : Vfo) (f : Word32) (s : State) :
    agcRun C v f s = agcStep8 C v (tickComputed C v f s) := rfl

@[simp] theorem tickComputed_trk (C : Config) (v : Vfo) (f : Word32) (s : State) :
    (tickComputed C v f s).trk v = tickTracker C v f s := by
  simp [tickComputed, tickTracker, tickReading]

theorem tickComputed_trk_other (C : Config) {v u : Vfo} (h : u ≠ v) (f : Word32) (s : State) :
    (tickComputed C v f s).trk u = s.trk u := by
  rw [tickComputed, agcComputeOn_trk_other C h, agcReadRssi_trk, agcStep1_trk_other h]

@[simp] theorem tickComputed_lastFreq (C : Config) (v : Vfo) (f : Word32) (s : State) :
    (tickComputed C v f s).lastFreq v = some f := by
  simp [tickComputed]

theorem tickComputed_lastFreq_other (C : Config) {v u : Vfo} (h : u ≠ v) (f : Word32) (s : State) :
    (tickComputed C v f s).lastFreq u = s.lastFreq u := by
  rw [tickComputed, agcComputeOn_lastFreq, agcReadRssi_lastFreq, agcStep1_lastFreq_other h]

@[simp] theorem tickComputed_history (C : Config) (v : Vfo) (f : Word32) (s : State) : (tickComputed C v f s).history
    = s.history ++ [⟨s.history.length, .rd, C.rssiReg, tickReading C s, .agc v⟩] := by
  simp [tickComputed, tickReading]

@[simp] theorem tickComputed_agcRaw (C : Config) (v : Vfo) (f : Word32) (s : State) :
    (tickComputed C v f s).agcRaw = tickReading C s := by
  simp [tickComputed, tickReading]

@[simp] theorem tickComputed_rxShift (C : Config) (v : Vfo) (f : Word32) (s : State) :
    (tickComputed C v f s).rxShift = tickReading C s := by
  simp [tickComputed, tickReading]

@[simp] theorem tickComputed_cmdLatch (C : Config) (v : Vfo) (f : Word32) (s : State) :
    (tickComputed C v f s).cmdLatch = s.cmdLatch := by
  simp [tickComputed]

@[simp] theorem tickComputed_devUndefined (C : Config) (v : Vfo) (f : Word32) (s : State) :
    (tickComputed C v f s).devUndefined = s.devUndefined := by
  simp [tickComputed]

@[simp] theorem tickComputed_port (C : Config) (v : Vfo) (f : Word32) (s : State) :
    (tickComputed C v f s).port = s.port := by
  simp [tickComputed]

@[simp] theorem tickComputed_hostResult (C : Config) (v : Vfo) (f : Word32) (s : State) :
    (tickComputed C v f s).hostResult = s.hostResult := by
  simp [tickComputed]

/-- A skipped tick, whole (43 R190, D16). -/
theorem agcTickOn_skipped (C : Config) (v : Vfo) (f : Word32) (s : State) :
    agcTickOn C v false f s = (s.latch (agcTickWord v false f)).respond .skipped 0#16 := rfl

/-- A receiving tick of the machine: step 8 writes, and the response carries the word read. -/
theorem agcTickOn_board_receiving (v : Vfo) (f : Word32) (s : State) :
    let computed := tickComputed Config.board v f (s.latch (agcTickWord v true f))
    agcTickOn Config.board v true f s = (agcApply Config.board v (regWrite Config.board Config.board.gainReg
      (gainEntry Config.board (tickTracker Config.board v f s).idx).reg (.agc v) computed)).respond .ok
        (tickReading Config.board s) := by
  have reading : tickReading Config.board (s.latch (agcTickWord v true f)) = tickReading Config.board s := rfl
  have tracker : tickTracker Config.board v f (s.latch (agcTickWord v true f)) = tickTracker Config.board v f s := by
    simp [tickTracker, reading]
  intro computed
  rw [agcTickOn, if_pos rfl, agcRun_eq, agcStep8_of_writes (agcWrites_board _), tickComputed_trk, tracker,
    agcApply_agcRaw, regWrite_agcRaw, tickComputed_agcRaw, reading]

section
variable (v : Vfo) (f : Word32) (s : State)

@[simp] theorem agcTickOn_board_trk : (agcTickOn Config.board v true f s).trk v
    = { tickTracker Config.board v f s with prevIdx := some (tickTracker Config.board v f s).idx } := by
  simp [agcTickOn_board_receiving, agcApply_trk_self, tickTracker, tickReading]

@[simp] theorem agcTickOn_board_lastFreq : (agcTickOn Config.board v true f s).lastFreq v = some f := by
  simp [agcTickOn_board_receiving]

@[simp] theorem agcTickOn_board_gainDiff : (agcTickOn Config.board v true f s).gainDiff
    = -7 - (gainEntry Config.board (tickTracker Config.board v f s).idx).gain := by
  simp [agcTickOn_board_receiving, agcApply_gainDiff, gainEntry_base, tickTracker, tickReading]

@[simp] theorem agcTickOn_board_history : (agcTickOn Config.board v true f s).history = s.history ++
    [⟨s.history.length, .rd, Config.board.rssiReg, tickReading Config.board s, .agc v⟩,
     ⟨s.history.length + 1, .wr, Config.board.gainReg,
      (gainEntry Config.board (tickTracker Config.board v f s).idx).reg, .agc v⟩] := by
  simp [agcTickOn_board_receiving, tickReading]

@[simp] theorem agcTickOn_board_rsp : (agcTickOn Config.board v true f s).rsp
    = ⟨true, .ok, tickReading Config.board s⟩ := by
  simp [agcTickOn_board_receiving]

end

/-- A tick leaves the other VFO's tracker and frequency (43 R190). -/
theorem agcTickOn_board_other {v u : Vfo} (h : u ≠ v) (rx : Bool) (f : Word32) (s : State) :
    (agcTickOn Config.board v rx f s).trk u = s.trk u ∧ (agcTickOn Config.board v rx f s).lastFreq u = s.lastFreq u := by
  cases rx with
  | false => simp [agcTickOn_skipped]
  | true => simp [agcTickOn_board_receiving, agcApply_trk_other _ h, tickComputed_trk_other _ h,
      tickComputed_lastFreq_other _ h]

@[simp] theorem agcTickOn_board_devUndefined (v : Vfo) (rx : Bool) (f : Word32) (s : State) :
    (agcTickOn Config.board v rx f s).devUndefined = s.devUndefined := by
  cases rx with
  | false => simp [agcTickOn_skipped]
  | true => simp [agcTickOn_board_receiving]

@[simp] theorem agcTickOn_board_port (v : Vfo) (rx : Bool) (f : Word32) (s : State) :
    (agcTickOn Config.board v rx f s).port = s.port := by
  cases rx with
  | false => simp [agcTickOn_skipped]
  | true => simp [agcTickOn_board_receiving]

/-- Settles O34: the fields of the tick, whole; the RSSI field is a quotient and remainder. -/
theorem receivingTickCompletes : Obligations.ReceivingTickCompletes := by
  intro v u f s hu B w start after
  have tracker : after = tickTracker B v f s := by
    simp only [after, start, w, tickTracker, tickReading, rssiField_eq, Nat.shiftRight_eq_div_pow]
    rfl
  obtain ⟨otherTrk, otherFreq⟩ := agcTickOn_board_other hu true f s
  rw [tracker]
  refine ⟨agcTickOn B v true f s, rfl, agcTickOn_board_trk .., agcTickOn_board_lastFreq .., agcTickOn_board_gainDiff ..,
    ?agcRaw, agcTickOn_board_rsp .., agcTickOn_board_history .., rfl, rfl, ?cmdLatch, ?rxShift, ?txFrame, ?pins, otherTrk,
    otherFreq, agcTickOn_board_devUndefined .., rfl, ?hostResult, agcTickOn_board_port ..⟩
  all_goals simp [B, agcTickOn_board_receiving, tickReading, idlePins, w]

/-! ## Who changes a tracker -/

theorem executed_devUndefined {s t : State} {i : Instr} (h : Executed s i t) : t.devUndefined = s.devUndefined := by
  cases h with
  | host h => exact h.sameAgc.devUndefined
  | frameWrite a d => exact (sameAgc_frameWriteOn _ a d s).devUndefined
  | frameRead a d => exact (sameAgc_frameReadOn _ a d s).devUndefined
  | agcTick v rx f => exact agcTickOn_board_devUndefined v rx f s

/-- All but a receiving tick leave every tracker, every frequency and the offset. -/
theorem executed_keeps_or_ticks {s t : State} {i : Instr} (h : Executed s i t) :
    ((∀ v, t.trk v = s.trk v ∧ t.lastFreq v = s.lastFreq v) ∧ t.gainDiff = s.gainDiff) ∨
    ∃ v f, i = .agcTick v true f ∧ t = agcTickOn Config.board v true f s := by
  have keeps (same : SameAgc s t) : (∀ v, t.trk v = s.trk v ∧ t.lastFreq v = s.lastFreq v) ∧ t.gainDiff = s.gainDiff :=
    ⟨fun v => ⟨same.trk v, same.lastFreq v⟩, same.gainDiff⟩
  cases h with
  | host h => exact .inl (keeps h.sameAgc)
  | frameWrite a d => exact .inl (keeps (sameAgc_frameWriteOn ..))
  | frameRead a d => exact .inl (keeps (sameAgc_frameReadOn ..))
  | agcTick v rx f =>
    cases rx with
    | true => exact .inr ⟨v, f, rfl, rfl⟩
    | false => exact .inl (by simp [agcTickOn_skipped])

/-- Settles O31: a receiving tick of another VFO leaves this one's tracker and frequency too. -/
theorem onlyTheOwnTickMutatesATracker : Obligations.OnlyTheOwnTickMutatesATracker := by
  intro i s t h
  have executed := executed_of_exec h
  refine ⟨fun v changed => ?own, fun changed => ?offset, executed_devUndefined executed⟩
  case own =>
    rcases executed_keeps_or_ticks executed with ⟨kept, -⟩ | ⟨u, f, rfl, rfl⟩
    · obtain ⟨trk, freq⟩ := kept v
      exact absurd changed (by simp [trk, freq])
    · by_cases hv : v = u
      · exact hv ▸ ⟨f, rfl⟩
      · obtain ⟨trk, freq⟩ := agcTickOn_board_other hv true f s
        exact absurd changed (by simp [trk, freq])
  case offset =>
    rcases executed_keeps_or_ticks executed with ⟨-, kept⟩ | ⟨u, f, rfl, -⟩
    · exact absurd kept changed
    · exact ⟨u, f, rfl⟩

/-! ## A frequency change forgets the tracker (43 R207) -/

theorem agcStep3_with_prevIdx (t : Tracker) (p : Option Nat) :
    agcStep3 { t with prevIdx := p } = { agcStep3 t with prevIdx := p } := by
  unfold agcStep3
  split <;> rfl

theorem agcStep5_with_prevIdx (C : Config) (d : Int) (t : Tracker) (p : Option Nat) :
    agcStep5 C d { t with prevIdx := p } = { agcStep5 C d t with prevIdx := p } := by
  unfold agcStep5
  split
  · split <;> rfl
  · rfl

theorem agcStep6_with_prevIdx (d : Int) (t : Tracker) (p : Option Nat) :
    agcStep6 d { t with prevIdx := p } = { agcStep6 d t with prevIdx := p } := by
  unfold agcStep6
  split <;> rfl

theorem agcStep7_with_prevIdx (t : Tracker) (p : Option Nat) :
    agcStep7 { t with prevIdx := p } = { agcStep7 t with prevIdx := p } := by
  unfold agcStep7
  split <;> rfl

/-- Steps 2 to 7 carry `prevIdx` along and do not look at it. -/
theorem agcCompute_with_prevIdx (C : Config) (new : Nat) (t : Tracker) (p : Option Nat) :
    agcCompute C new { t with prevIdx := p } = { agcCompute C new t with prevIdx := p } := by
  have store : agcStore new { t with prevIdx := p } = { agcStore new t with prevIdx := p } := rfl
  have smooth : agcSmooth { t with prevIdx := p } new = agcSmooth t new := rfl
  rw [agcCompute, store, smooth, agcStep3_with_prevIdx, agcStep5_with_prevIdx, agcStep6_with_prevIdx,
    agcStep7_with_prevIdx, agcCompute]

/-- After a frequency change the tick starts from a fresh tracker, but for the applied index (D25). -/
theorem tickTracker_of_new_frequency (C : Config) {v : Vfo} {f : Word32} {s : State} (h : s.lastFreq v ≠ some f) :
    tickTracker C v f s = { agcCompute C (rssiField C (tickReading C s)) Tracker.start with
      prevIdx := (s.trk v).prevIdx } := by
  rw [tickTracker, if_neg h]
  exact agcCompute_with_prevIdx C _ Tracker.start (s.trk v).prevIdx

/-- Settles O35: both ticks run steps 2 to 7 on a fresh tracker with the same reading. -/
theorem frequencyChangeForgetsTheTracker : Obligations.FrequencyChangeForgetsTheTracker := by
  intro v f s1 s2 t1 t2 h1 h2 history run1 run2
  cases run1
  cases run2
  have reading : tickReading Config.board s1 = tickReading Config.board s2 :=
    congrArg (Config.board.oracle Config.board.rssiReg) history
  rw [agcTickOn_board_trk, agcTickOn_board_trk, agcTickOn_board_gainDiff, agcTickOn_board_gainDiff,
    agcTickOn_board_history, agcTickOn_board_history, agcTickOn_board_rsp, agcTickOn_board_rsp,
    tickTracker_of_new_frequency _ h1, tickTracker_of_new_frequency _ h2, reading, history]
  exact ⟨rfl, rfl, rfl, rfl⟩

/-! ## The readouts (10 R24, 43 R201) -/

theorem readouts_of_none {C : Config} {s : State} {v : Vfo} (h : (s.trk v).prevIdx = none) :
    s.appliedValidOut v = false ∧ s.appliedIdxOut v = 0 ∧ s.appliedRegOut C v = 0#16 := by
  simp [State.appliedValidOut, State.appliedIdxOut, State.appliedRegOut, h]

theorem readouts_of_some {C : Config} {s : State} {v : Vfo} {i : Nat} (h : (s.trk v).prevIdx = some i) :
    s.appliedValidOut v = true ∧ s.appliedIdxOut v = i ∧ s.appliedRegOut C v = (gainEntry C i).reg := by
  simp [State.appliedValidOut, State.appliedIdxOut, State.appliedRegOut, h]

/-- Settles O36: the readouts follow `prevIdx`, and a tick leaves its index there and its word in the last event. -/
theorem readoutsShowTheAppliedGain : Obligations.ReadoutsShowTheAppliedGain := by
  refine ⟨fun C s v => ⟨readouts_of_none, fun i => readouts_of_some⟩, fun v => by cases v <;> exact ⟨rfl, rfl⟩,
    fun v f s t h => ?_⟩
  cases h
  have trk := agcTickOn_board_trk v f s
  obtain ⟨valid, idx, reg⟩ := readouts_of_some (C := Config.board) (congrArg Tracker.prevIdx trk)
  rw [valid, idx, reg, trk, State.gainDiffOut, agcTickOn_board_gainDiff, agcTickOn_board_history]
  refine ⟨rfl, rfl, rfl, by simp, ?_⟩
  split
  case isTrue base =>
    rw [base, gainEntry_base]
    rfl
  case isFalse => rfl

end Sys2Proof.Machine
end

section
/-! SUPPORT, and the proofs of O17, O18, O20, O21, O23 to O27, O32, O33 and O59. A clock cycle and a step by what the block
and the host are at, and what each part of a cycle does to the latch, to `rxShift`, to the history and to the host's moves
(41 R125, R129, 60 R230 to R236, 70 R260 to R263). -/

namespace Sys2Proof.Machine

/-! ## Idle and busy -/

theorem idle_iff (s : State) : s.idle = true ↔ s.pos.phase = .idle ∧ s.pos.agcStep ≠ .compute := by
  simp [State.idle]

theorem idle_of_start {s : State} (h : s.pos = Pos.start) : s.idle = true := by
  rw [idle_iff, h]
  decide

theorem phase_ne_idle_of_busy {s : State} (h : s.idle = false) (hstep : s.pos.agcStep ≠ .compute) :
    s.pos.phase ≠ .idle := fun hphase => by
  rw [(idle_iff s).mpr ⟨hphase, hstep⟩] at h
  cases h

/-- `cmd_ready` is the block idle and no reset (10 R22). -/
theorem cmdReady_iff (s : State) (rst : Bool) : s.cmdReady rst = true ↔ s.idle = true ∧ rst = false := by
  simp [State.cmdReady]

/-! ## The kinds of cycle -/

theorem cycle_reset (C : Config) {inp : PortIn} (h : inp.rst = true) (s : State) : cycle C inp s = resetBlock C s := by
  rw [cycle, if_pos h]

theorem cycle_accept (C : Config) {inp : PortIn} {s : State} (hready : s.cmdReady inp.rst = true)
    (hvalid : inp.cmdValid = true) : cycle C inp s = acceptWord C inp.cmdWord s := by
  obtain ⟨hidle, hrst⟩ := (cmdReady_iff s _).mp hready
  rw [cycle, hrst, if_neg Bool.false_ne_true, if_pos hidle, if_pos hvalid]

theorem cycle_quiet (C : Config) {inp : PortIn} {s : State} (hready : s.cmdReady inp.rst = true)
    (hvalid : inp.cmdValid = false) : cycle C inp s = s.idleCycle := by
  obtain ⟨hidle, hrst⟩ := (cmdReady_iff s _).mp hready
  rw [cycle, hrst, if_neg Bool.false_ne_true, if_pos hidle, hvalid, if_neg Bool.false_ne_true]

theorem cycle_compute (C : Config) {inp : PortIn} {s : State} (hrst : inp.rst = false)
    (hstep : s.pos.agcStep = .compute) : cycle C inp s = computeCycle C s := by
  have busy : s.idle = false := by
    rw [Bool.eq_false_iff, ne_eq, idle_iff]
    exact fun h => h.2 hstep
  rw [cycle, hrst, busy, if_neg Bool.false_ne_true, if_neg Bool.false_ne_true, if_pos hstep]

theorem cycle_phase (C : Config) {inp : PortIn} {s : State} (hrst : inp.rst = false) (hphase : s.pos.phase ≠ .idle)
    (hstep : s.pos.agcStep ≠ .compute) : cycle C inp s = phaseCycle C inp.sdaIn s := by
  have busy : s.idle = false := by
    rw [Bool.eq_false_iff, ne_eq, idle_iff]
    exact fun h => hphase h.1
  rw [cycle, hrst, busy, if_neg Bool.false_ne_true, if_neg Bool.false_ne_true, if_neg hstep]

/-- Every cycle is of one of five kinds (10 R22, 60 R232, R236, 43 R199). -/
theorem cycle_kinds (C : Config) (inp : PortIn) (s : State) :
    (inp.rst = true ∧ cycle C inp s = resetBlock C s) ∨
    (s.cmdReady inp.rst = true ∧ inp.cmdValid = true ∧ cycle C inp s = acceptWord C inp.cmdWord s) ∨
    (s.cmdReady inp.rst = true ∧ inp.cmdValid = false ∧ cycle C inp s = s.idleCycle) ∨
    (inp.rst = false ∧ s.pos.agcStep = .compute ∧ cycle C inp s = computeCycle C s) ∨
    (inp.rst = false ∧ s.pos.phase ≠ .idle ∧ s.pos.agcStep ≠ .compute ∧ cycle C inp s = phaseCycle C inp.sdaIn s) := by
  by_cases hrst : inp.rst = true
  · exact .inl ⟨hrst, cycle_reset C hrst s⟩
  rw [Bool.not_eq_true] at hrst
  by_cases hidle : s.idle = true
  · have hready := (cmdReady_iff s inp.rst).mpr ⟨hidle, hrst⟩
    cases hvalid : inp.cmdValid with
    | true => exact .inr (.inl ⟨hready, rfl, cycle_accept C hready hvalid⟩)
    | false => exact .inr (.inr (.inl ⟨hready, rfl, cycle_quiet C hready hvalid⟩))
  rw [Bool.not_eq_true] at hidle
  by_cases hstep : s.pos.agcStep = .compute
  · exact .inr (.inr (.inr (.inl ⟨hrst, hstep, cycle_compute C hrst hstep⟩)))
  · have hphase := phase_ne_idle_of_busy hidle hstep
    exact .inr (.inr (.inr (.inr ⟨hrst, hphase, hstep, cycle_phase C hrst hphase hstep⟩)))

/-! ## Acceptance -/

theorem acceptWord_of_ok (C : Config) {c : CmdWord} {i : Instr} (h : decodeWord c = .ok i) (s : State) :
    acceptWord C c s = startCommand C i (s.latch c) := by
  rw [acceptWord, h]

theorem acceptWord_of_error (C : Config) {c : CmdWord} {r : IllegalReason} (h : decodeWord c = .error r) (s : State) :
    acceptWord C c s = (s.latch c).refuse r := by
  rw [acceptWord, h]

/-- A word that decodes is one of the three commands. -/
theorem decodeWord_commands {c : CmdWord} {i : Instr} (h : decodeWord c = .ok i) :
    (∃ a d, i = .busWrite a d) ∨ (∃ a, i = .busRead a) ∨ ∃ v rx f, i = .agcTick v rx f := by
  have word := encode_of_decodeWord h
  cases i with
  | busWrite a d => exact .inl ⟨a, d, rfl⟩
  | busRead a => exact .inr (.inl ⟨a, rfl⟩)
  | agcTick v rx f => exact .inr (.inr ⟨v, rx, f, rfl⟩)
  | _ => cases word

/-- What the acceptance of a word can do: refuse it, start the frame of its transaction, or skip the tick (41 R129, 60
R230, R233). -/
theorem acceptWord_cases (C : Config) (c : CmdWord) (s : State) :
    (∃ r, decodeWord c = .error r ∧ acceptWord C c s = (s.latch c).refuse r) ∨
    (∃ a d, acceptWord C c s =
      startFrame C (writeFrame a d) { s.latch c with pos := { s.pos with op := .write } }) ∨
    (∃ a, acceptWord C c s =
      startFrame C (readFrame a 0#16) { s.latch c with pos := { s.pos with op := .read } }) ∨
    (∃ v f, acceptWord C c s = startFrame C (readFrame C.rssiReg 0#16)
      { agcStep1 v f (s.latch c) with pos := { s.pos with op := .agcTick, agcStep := .rdRssi } }) ∨
    acceptWord C c s = (s.latch c).respond .skipped 0#16 := by
  cases h : decodeWord c with
  | error r => exact .inl ⟨r, rfl, acceptWord_of_error C h s⟩
  | ok i =>
    rw [acceptWord_of_ok C h]
    obtain ⟨a, d, rfl⟩ | ⟨a, rfl⟩ | ⟨v, rx, f, rfl⟩ := decodeWord_commands h
    · exact .inr (.inl ⟨a, d, rfl⟩)
    · exact .inr (.inr (.inl ⟨a, rfl⟩))
    · cases rx with
      | false => exact .inr (.inr (.inr (.inr rfl)))
      | true => exact .inr (.inr (.inr (.inl ⟨v, f, rfl⟩)))

@[simp] theorem acceptWord_cmdLatch (C : Config) (c : CmdWord) (s : State) : (acceptWord C c s).cmdLatch = c := by
  obtain ⟨r, -, h⟩ | ⟨a, d, h⟩ | ⟨a, h⟩ | ⟨v, f, h⟩ | h := acceptWord_cases C c s <;>
    simp [h, startFrame, enterSlot]

@[simp] theorem acceptWord_rxShift (C : Config) (c : CmdWord) (s : State) : (acceptWord C c s).rxShift = s.rxShift := by
  obtain ⟨r, -, h⟩ | ⟨a, d, h⟩ | ⟨a, h⟩ | ⟨v, f, h⟩ | h := acceptWord_cases C c s <;>
    simp [h, startFrame, enterSlot]

@[simp] theorem acceptWord_history (C : Config) (c : CmdWord) (s : State) : (acceptWord C c s).history = s.history := by
  obtain ⟨r, -, h⟩ | ⟨a, d, h⟩ | ⟨a, h⟩ | ⟨v, f, h⟩ | h := acceptWord_cases C c s <;>
    simp [h, startFrame, enterSlot]

@[simp] theorem acceptWord_port (C : Config) (c : CmdWord) (s : State) : (acceptWord C c s).port = s.port := by
  obtain ⟨r, -, h⟩ | ⟨a, d, h⟩ | ⟨a, h⟩ | ⟨v, f, h⟩ | h := acceptWord_cases C c s <;>
    simp [h, startFrame, enterSlot]

/-! ## The end of a transaction and the COMPUTE cycle -/

/-- The event that the end of the transaction in progress appends (20 R68, R70). -/
def endEvent (s : State) : Event :=
  ⟨s.history.length, if frameIsRead s.txFrame then .rd else .wr, frameAddr s.txFrame,
    if frameIsRead s.txFrame then s.rxShift else frameData s.txFrame, s.origin⟩

/-- The state with that event appended. -/
def State.recorded (s : State) : State := { s with history := s.history ++ [endEvent s] }

theorem endTransaction_write (C : Config) {s : State} (hop : s.pos.op = .write) :
    endTransaction C s = s.recorded.respond .ok 0#16 := by
  rw [endTransaction, hop]
  rfl

theorem endTransaction_read (C : Config) {s : State} (hop : s.pos.op = .read) :
    endTransaction C s = s.recorded.respond .ok s.rxShift := by
  rw [endTransaction, hop]
  rfl

/-- After the RSSI read the block goes to the COMPUTE cycle (43 R199). -/
theorem endTransaction_rdRssi (C : Config) {s : State} (hop : s.pos.op = .agcTick) (hstep : s.pos.agcStep = .rdRssi) :
    endTransaction C s =
      { s.recorded with agcRaw := s.rxShift, pos := { s.pos with agcStep := .compute } } := by
  rw [endTransaction, hop, hstep]
  rfl

/-- After the gain write the offset and the applied index are set, and the tick responds (43 R198). -/
theorem endTransaction_wrGain (C : Config) {s : State} (hop : s.pos.op = .agcTick) (hstep : s.pos.agcStep = .wrGain) :
    endTransaction C s = (agcApply C s.tickVfo s.recorded).respond .ok s.agcRaw := by
  rw [endTransaction, hop, hstep]
  rfl

@[simp] theorem endTransaction_history (C : Config) (s : State) :
    (endTransaction C s).history = s.history ++ [endEvent s] := by
  cases hop : s.pos.op with
  | agcTick => cases hstep : s.pos.agcStep <;> simp [endTransaction, hop, hstep, endEvent]
  | _ => simp [endTransaction, hop, endEvent]

@[simp] theorem endTransaction_rxShift (C : Config) (s : State) : (endTransaction C s).rxShift = s.rxShift := by
  cases hop : s.pos.op with
  | agcTick => cases hstep : s.pos.agcStep <;> simp [endTransaction, hop, hstep]
  | _ => simp [endTransaction, hop]

@[simp] theorem endTransaction_port (C : Config) (s : State) : (endTransaction C s).port = s.port := by
  cases hop : s.pos.op with
  | agcTick => cases hstep : s.pos.agcStep <;> simp [endTransaction, hop, hstep]
  | _ => simp [endTransaction, hop]

/-- What the COMPUTE cycle can do: start the gain write, or complete the tick without one (43 R198, R199). -/
theorem computeCycle_cases (C : Config) (s : State) :
    let computed := agcComputeOn C s.tickVfo s
    (agcWrites C (computed.trk s.tickVfo) = true ∧ computeCycle C s =
      startFrame C (writeFrame C.gainReg (gainEntry C (computed.trk s.tickVfo).idx).reg)
        { computed with pos := { s.pos with agcStep := .wrGain } }) ∨
    (agcWrites C (computed.trk s.tickVfo) = false ∧ computeCycle C s = computed.respond .ok s.agcRaw) := by
  intro computed
  cases h : agcWrites C (computed.trk s.tickVfo) with
  | true => exact .inl ⟨rfl, by rw [computeCycle, if_pos h, agcComputeOn_pos]⟩
  | false => exact .inr ⟨rfl, by rw [computeCycle, if_neg (by rw [h]; decide), agcComputeOn_agcRaw]⟩

@[simp] theorem computeCycle_history (C : Config) (s : State) : (computeCycle C s).history = s.history := by
  rcases computeCycle_cases C s with ⟨-, h⟩ | ⟨-, h⟩ <;> simp [h, startFrame, enterSlot]

@[simp] theorem computeCycle_rxShift (C : Config) (s : State) : (computeCycle C s).rxShift = s.rxShift := by
  rcases computeCycle_cases C s with ⟨-, h⟩ | ⟨-, h⟩ <;> simp [h, startFrame, enterSlot]

@[simp] theorem computeCycle_port (C : Config) (s : State) : (computeCycle C s).port = s.port := by
  rcases computeCycle_cases C s with ⟨-, h⟩ | ⟨-, h⟩ <;> simp [h, startFrame, enterSlot]

/-! ## A cycle of a phase -/

/-- The state with the last cycle's sample taken (41 R125). -/
def State.sampled (s : State) (line : Bool) : State :=
  { s with rxShift := sampleInto s.pos.phase s.pos.bit line s.rxShift }

theorem phaseCycle_counting (C : Config) (line : Bool) {s : State} (h : s.settle ≠ 0) :
    phaseCycle C line s = { s with settle := s.settle - 1 } := by
  rw [phaseCycle, if_pos h]

theorem phaseCycle_next (C : Config) (line : Bool) {s : State} (h : s.settle = 0) {n : Slot}
    (hn : nextSlot (frameIsRead s.txFrame) s.pos.phase s.pos.bit = some n) :
    phaseCycle C line s = enterSlot C n.1 n.2 (s.sampled line) := by
  rw [phaseCycle, if_neg (not_not.mpr h), hn]
  rfl

theorem phaseCycle_end (C : Config) (line : Bool) {s : State} (h : s.settle = 0)
    (hn : nextSlot (frameIsRead s.txFrame) s.pos.phase s.pos.bit = none) :
    phaseCycle C line s = endTransaction C (s.sampled line) := by
  rw [phaseCycle, if_neg (not_not.mpr h), hn]
  rfl

/-- What a cycle of a phase can do: count, go to the next phase, or end the transaction. -/
theorem phaseCycle_cases (C : Config) (line : Bool) (s : State) :
    (s.settle ≠ 0 ∧ phaseCycle C line s = { s with settle := s.settle - 1 }) ∨
    (s.settle = 0 ∧ ∃ n, nextSlot (frameIsRead s.txFrame) s.pos.phase s.pos.bit = some n ∧
      phaseCycle C line s = enterSlot C n.1 n.2 (s.sampled line)) ∨
    (s.settle = 0 ∧ nextSlot (frameIsRead s.txFrame) s.pos.phase s.pos.bit = none ∧
      phaseCycle C line s = endTransaction C (s.sampled line)) := by
  by_cases h : s.settle = 0
  · cases hn : nextSlot (frameIsRead s.txFrame) s.pos.phase s.pos.bit with
    | some n => exact .inr (.inl ⟨h, n, rfl, phaseCycle_next C line h hn⟩)
    | none => exact .inr (.inr ⟨h, rfl, phaseCycle_end C line h hn⟩)
  · exact .inl ⟨h, phaseCycle_counting C line h⟩

theorem phaseCycle_rxShift (C : Config) (line : Bool) (s : State) : (phaseCycle C line s).rxShift =
    if s.settle = 0 then sampleInto s.pos.phase s.pos.bit line s.rxShift else s.rxShift := by
  obtain ⟨h, e⟩ | ⟨h, n, -, e⟩ | ⟨h, -, e⟩ := phaseCycle_cases C line s <;> rw [e]
  · rw [if_neg h]
  · rw [if_pos h]
    rfl
  · rw [if_pos h, endTransaction_rxShift]
    rfl

/-! ## Sampling (41 R125) -/

/-- `rxShift` after any cycle with no reset. -/
theorem cycle_rxShift (C : Config) {inp : PortIn} (hrst : inp.rst = false) (s : State) : (cycle C inp s).rxShift =
    if s.settle = 0 ∧ s.pos.agcStep ≠ .compute then sampleInto s.pos.phase s.pos.bit inp.sdaIn s.rxShift
    else s.rxShift := by
  have unsampled (hready : s.cmdReady inp.rst = true) : sampleInto s.pos.phase s.pos.bit inp.sdaIn s.rxShift = s.rxShift := by
    obtain ⟨hidle, -⟩ := (cmdReady_iff s _).mp hready
    rw [((idle_iff s).mp hidle).1]
    rfl
  obtain ⟨h, -⟩ | ⟨hready, -, h⟩ | ⟨hready, -, h⟩ | ⟨-, hstep, h⟩ | ⟨-, -, hstep, h⟩ := cycle_kinds C inp s
  · rw [hrst] at h
    cases h
  · rw [h, acceptWord_rxShift, unsampled hready, ite_self]
  · rw [h, State.idleCycle_rxShift, unsampled hready, ite_self]
  · rw [h, computeCycle_rxShift, if_neg (fun k => k.2 hstep)]
  · rw [h, phaseCycle_rxShift]
    exact if_congr (by simp [hstep]) rfl rfl

theorem sampleInto_ta (b : Nat) (line : Bool) (rx : Word16) : sampleInto .ta b line rx = setBit16 rx 15 line := rfl

theorem sampleInto_rLow {b : Nat} (h : b ≤ 22) (line : Bool) (rx : Word16) :
    sampleInto .rLow b line rx = setBit16 rx (22 - b) line := by
  simp [sampleInto, sampleIndex, h]

theorem sampleInto_other {ph : Phase} {b : Nat} (h : ph ≠ .ta ∧ ¬(ph = .rLow ∧ b ≤ 22)) (line : Bool) (rx : Word16) :
    sampleInto ph b line rx = rx := by
  obtain ⟨notTa, notRLow⟩ := h
  cases ph with
  | ta => exact absurd rfl notTa
  | rLow =>
    have beyond : ¬b ≤ 22 := fun hb => notRLow ⟨rfl, hb⟩
    simp [sampleInto, sampleIndex, beyond]
  | _ => rfl

/-- The last cycle of a read's POST responds with what was sampled (41 R129). -/
theorem cycle_read_post_rsp (C : Config) {inp : PortIn} (hrst : inp.rst = false) {s : State} (hsettle : s.settle = 0)
    (hstep : s.pos.agcStep ≠ .compute) (hphase : s.pos.phase = .post) (hop : s.pos.op = .read) :
    (cycle C inp s).rsp = ⟨true, .ok, s.rxShift⟩ := by
  rw [cycle_phase C hrst (by rw [hphase]; decide) hstep, phaseCycle_end C _ hsettle (by rw [hphase]; rfl)]
  simp [endTransaction, State.sampled, hop, hphase, sampleInto_other]

/-- Settles O17: `cycle_rxShift` with the bit that each phase samples. -/
theorem readSamplesEachBitAtItsPhase : Obligations.ReadSamplesEachBitAtItsPhase := by
  intro C inp s hrst t sampling
  have rx : t.rxShift = _ := cycle_rxShift C hrst s
  refine ⟨fun hs hphase i _ => ?ta, fun hs hphase _ hb i _ => ?rLow, fun h => ?other, fun hs hphase hop => ?post⟩
  case ta => rw [rx, if_pos hs, hphase, sampleInto_ta, getLsbD_setBit16 _ (by decide)]
  case rLow => rw [rx, if_pos hs, hphase, sampleInto_rLow hb, getLsbD_setBit16 _ (by omega)]
  case other =>
    rw [rx]
    rcases h with notSampling | unsampled
    · rw [if_neg notSampling]
    · rw [sampleInto_other unsampled, ite_self]
  case post => exact cycle_read_post_rsp C hrst hs.1 hs.2 hphase hop

/-! ## The history and the host's moves over a cycle -/

/-- The history after a cycle: at most one event more, and none in reset (20 R70, log entries 10 and 13). -/
theorem cycle_history (C : Config) (inp : PortIn) (s : State) : (cycle C inp s).history = s.history ∨
    (inp.rst = false ∧ ∃ e, (cycle C inp s).history = s.history ++ [e]) := by
  obtain ⟨-, h⟩ | ⟨-, -, h⟩ | ⟨-, -, h⟩ | ⟨-, -, h⟩ | ⟨hrst, -, -, h⟩ := cycle_kinds C inp s <;> rw [h]
  · exact .inl rfl
  · exact .inl (acceptWord_history ..)
  · exact .inl rfl
  · exact .inl (computeCycle_history ..)
  · obtain ⟨-, e⟩ | ⟨-, n, -, e⟩ | ⟨-, -, e⟩ := phaseCycle_cases C inp.sdaIn s <;> rw [e]
    · exact .inl rfl
    · exact .inl rfl
    · exact .inr ⟨hrst, _, endTransaction_history ..⟩

theorem cycle_port (C : Config) (inp : PortIn) (s : State) : (cycle C inp s).port = s.port := by
  obtain ⟨-, h⟩ | ⟨-, -, h⟩ | ⟨-, -, h⟩ | ⟨-, -, h⟩ | ⟨-, -, -, h⟩ := cycle_kinds C inp s <;> rw [h]
  · rfl
  · exact acceptWord_port ..
  · rfl
  · exact computeCycle_port ..
  · obtain ⟨-, e⟩ | ⟨-, n, -, e⟩ | ⟨-, -, e⟩ := phaseCycle_cases C inp.sdaIn s <;> rw [e]
    · rfl
    · exact endTransaction_port ..

/-! ## Steps -/

theorem step_busy {s : State} (h : s.idle = false) : step s = .next (fetchBusy Config.board s) := by
  rw [step, fetch, h]
  rfl

theorem step_idle {s : State} (h : s.idle = true) : step s =
    match fetchIdle Config.board s with
    | .run i s' => exec i s'
    | .now s' => .next s' := by
  rw [step, fetch, h]
  rfl

theorem step_quiet {s : State} (h : s.idle = true) (hport : s.port = []) : step s = .next s.idleCycle := by
  rw [step_idle h, fetchIdle, hport]

theorem step_reset {s : State} (h : s.idle = true) {rest : List Request} (hport : s.port = .rst :: rest) :
    step s = .next (resetBlock Config.board { s with port := rest }) := by
  rw [step_idle h, fetchIdle, hport]

theorem step_word {s : State} (h : s.idle = true) {c : CmdWord} {rest : List Request} (hport : s.port = .word c :: rest)
    {i : Instr} (hc : decodeWord c = .ok i) : step s = exec i { s with port := rest } := by
  rw [step_idle h, fetchIdle, hport]
  simp only [fetchWord, hc]

theorem step_illegal_word {s : State} (h : s.idle = true) {c : CmdWord} {rest : List Request}
    (hport : s.port = .word c :: rest) {r : IllegalReason} (hc : decodeWord c = .error r) :
    step s = .next ((({ s with port := rest } : State).latch c).refuse r) := by
  rw [step_idle h, fetchIdle, hport]
  simp only [fetchWord, hc]

theorem step_line {s : State} (h : s.idle = true) {i : Instr} {rest : List Request} (hport : s.port = .line i :: rest) :
    step s = exec i { s with port := rest } := by
  rw [step_idle h, fetchIdle, hport]

theorem step_frame {s : State} (h : s.idle = true) {f : Frame} {rest : List Request} (hport : s.port = .frame f :: rest) :
    step s = exec (decodeFrame f) { s with port := rest } := by
  rw [step_idle h, fetchIdle, hport]

/-- Settles O23: one rule for each form of move. -/
theorem stepRunsTheDecodedInstruction : Obligations.StepRunsTheDecodedInstruction := fun _ _ _ h =>
  ⟨fun _ hport hc => step_word h hport hc, step_line h, fun _ hport hf => hf ▸ step_frame h hport,
    fun _ _ hport hc => step_illegal_word h hport hc⟩

theorem placeRequest_idle (r : Request) (s : State) : (placeRequest r s).idle = true := by
  cases h : s.idle with
  | true =>
    have kept : (placeRequest r s).pos = s.pos := by simp [placeRequest, h]
    rw [idle_iff, kept, ← idle_iff, h]
  | false => exact idle_of_start (by simp [placeRequest, h])

/-- A step takes the placed bits and runs what they decode to. -/
theorem step_placeRequest {e : Encoded} {i : Instr} (h : decodeEncoded e = some i) (s : State) :
    step (placeRequest (requestOf e) s) = exec i { s with pos := (if s.idle then s.pos else Pos.start) } := by
  have idle := placeRequest_idle (requestOf e) s
  cases e with
  | frame f =>
    cases h
    exact step_frame idle rfl
  | word c =>
    cases hc : decodeWord c with
    | error r => simp [decodeEncoded, hc] at h
    | ok j =>
      obtain rfl : j = i := by simpa [decodeEncoded, hc] using h
      exact step_word idle rfl hc

/-- Settles O24: the placed bits are the next move of an idle block. -/
theorem stepRunsThePlacedInstruction : Obligations.StepRunsThePlacedInstruction := by
  intro s nbits w i h
  rw [decodeTableWord] at h
  rw [State.withFetchWord]
  cases henc : encodedOfTable nbits w with
  | none => simp [henc] at h
  | some e => exact step_placeRequest (by simpa [henc] using h) s

theorem fetchBusy_reset (C : Config) {s : State} {rest : List Request} (h : s.port = .rst :: rest) :
    fetchBusy C s = resetBlock C { s with port := rest } := by
  rw [fetchBusy, h]

theorem fetchBusy_held (C : Config) {s : State} (h : s.port.head? ≠ some .rst) : fetchBusy C s = clock C s := by
  rw [fetchBusy]
  split
  case h_1 hport => simp [hport] at h
  all_goals rfl

/-- Settles O26: a busy block's step. -/
theorem busyStepHoldsTheCommand : Obligations.BusyStepHoldsTheCommand := fun s hbusy =>
  ⟨fun hhead => ⟨by rw [step_busy hbusy, fetchBusy_held _ hhead], cycle_port ..⟩,
    fun _ hport => by rw [step_busy hbusy, fetchBusy_reset _ hport]⟩

/-- What a step can do: a clock cycle or a reset of the block, an illegal word refused, or an instruction (log entries 1
and 2). -/
theorem step_kinds (s : State) : ∃ t, step s = .next t ∧
    (t = clock Config.board s ∨
     (∃ rest, t = resetBlock Config.board { s with port := rest }) ∨
     (s.idle = true ∧ t = s.idleCycle) ∨
     (s.idle = true ∧ ∃ c r rest, t = (({ s with port := rest } : State).latch c).refuse r) ∨
     (s.idle = true ∧ ∃ i rest, Executed { s with port := rest } i t)) := by
  cases hidle : s.idle with
  | false =>
    refine ⟨_, step_busy hidle, ?_⟩
    by_cases hhead : s.port.head? = some .rst
    · obtain ⟨rest, hport⟩ := List.head?_eq_some_iff.mp hhead
      exact .inr (.inl ⟨rest, fetchBusy_reset _ hport⟩)
    · exact .inl (fetchBusy_held _ hhead)
  | true =>
    match hport : s.port with
    | [] => exact ⟨_, step_quiet hidle hport, .inr (.inr (.inl ⟨rfl, rfl⟩))⟩
    | .rst :: rest => exact ⟨_, step_reset hidle hport, .inr (.inl ⟨rest, rfl⟩)⟩
    | .word c :: rest =>
      cases hc : decodeWord c with
      | error r => exact ⟨_, step_illegal_word hidle hport hc, .inr (.inr (.inr (.inl ⟨rfl, c, r, rest, rfl⟩)))⟩
      | ok i =>
        obtain ⟨t, ht, executed⟩ := exec_executed i { s with port := rest }
        exact ⟨t, (step_word hidle hport hc).trans ht, .inr (.inr (.inr (.inr ⟨rfl, i, rest, executed⟩)))⟩
    | .line i :: rest =>
      obtain ⟨t, ht, executed⟩ := exec_executed i { s with port := rest }
      exact ⟨t, (step_line hidle hport).trans ht, .inr (.inr (.inr (.inr ⟨rfl, i, rest, executed⟩)))⟩
    | .frame f :: rest =>
      obtain ⟨t, ht, executed⟩ := exec_executed (decodeFrame f) { s with port := rest }
      exact ⟨t, (step_frame hidle hport).trans ht, .inr (.inr (.inr (.inr ⟨rfl, _, rest, executed⟩)))⟩

/-- Settles O27: each kind of step answers a next state. -/
theorem everyStepGivesANextState : Obligations.EveryStepGivesANextState := fun s =>
  let ⟨t, h, _⟩ := step_kinds s
  ⟨t, h⟩

/-! ## The history over a step -/

theorem executed_history {s t : State} {i : Instr} (h : Executed s i t) : ∃ l, t.history = s.history ++ l := by
  cases h with
  | host h =>
    obtain ⟨l, hl, -⟩ := h.history
    exact ⟨l, hl⟩
  | frameWrite a d => exact ⟨_, by rw [frameWriteOn_eq]⟩
  | frameRead a d => exact ⟨_, by rw [frameReadOn_eq]⟩
  | agcTick v rx f =>
    cases rx with
    | true => exact ⟨_, agcTickOn_board_history v f s⟩
    | false => exact ⟨[], (List.append_nil _).symm⟩

/-- Settles O32: each kind of step and of cycle appends, a cycle one event at most. -/
theorem historyOnlyGrows : Obligations.HistoryOnlyGrows := by
  refine ⟨fun s t h => ?step, fun C inp s => ?cycle⟩
  case step =>
    obtain ⟨u, hu, kind⟩ := step_kinds s
    cases h.symm.trans hu
    obtain rfl | ⟨rest, rfl⟩ | ⟨-, rfl⟩ | ⟨-, c, r, rest, rfl⟩ | ⟨-, i, rest, executed⟩ := kind
    · rcases cycle_history Config.board _ s with kept | ⟨-, e, appended⟩
      · exact ⟨[], kept.trans (List.append_nil _).symm⟩
      · exact ⟨[e], appended⟩
    · exact ⟨[], (List.append_nil _).symm⟩
    · exact ⟨[], (List.append_nil _).symm⟩
    · exact ⟨[], (List.append_nil _).symm⟩
    · obtain ⟨l, hl⟩ := executed_history executed
      exact ⟨l, hl⟩
  case cycle =>
    rcases cycle_history C inp s with kept | ⟨hrst, e, appended⟩
    · exact ⟨[], kept.trans (List.append_nil _).symm, Nat.zero_le 1, fun _ => rfl⟩
    · exact ⟨[e], appended, Nat.le_refl 1, fun h => by rw [hrst] at h; cases h⟩

/-! ## The command port -/

/-- Settles O18: the kinds of cycle in which the command inputs are looked at. -/
theorem offeredCommandIsHeldWhileBusy : Obligations.OfferedCommandIsHeldWhileBusy := by
  intro C inp s
  refine ⟨fun h valid c => ?held, fun hready hvalid => ?accepted, fun hready hvalid => cycle_quiet C hready hvalid,
    step_quiet⟩
  case held =>
    rcases h with busy | reset
    · simp [cycle, busy]
    · exact (cycle_reset C (inp := { inp with cmdValid := valid, cmdWord := c }) reset s).trans (cycle_reset C reset s).symm
  case accepted => rw [cycle_accept C hready hvalid, acceptWord_cmdLatch]

/-- Settles O25: the acceptance of an illegal word is `State.refuse` on the latched state. -/
theorem illegalWordIsRefusedPrecisely : Obligations.IllegalWordIsRefusedPrecisely := by
  refine ⟨by decide, fun C inp s r hvalid hready hdecode => ?_⟩
  intro t
  have refused : t = (s.latch inp.cmdWord).refuse r :=
    (cycle_accept C hready hvalid).trans (acceptWord_of_error C hdecode s)
  rw [refused]
  exact ⟨rfl, rfl, rfl, rfl, rfl, rfl, fun v => by simp, rfl, rfl, rfl, rfl, rfl, rfl, rfl, rfl, rfl⟩

/-- A held offer: while the block does not take it, the host offers the same again. -/
theorem held_offer (C : Config) {inps : List PortIn} {s : State} {k : Nat} {first inp : PortIn}
    (holds : holdsOffers C inps s = true) (hfirst : inps.head? = some first) (hvalid : first.cmdValid = true)
    (hinp : inps[k]? = some inp)
    (waiting : ∀ j < k, ∀ i, inps[j]? = some i → (runCycles C (inps.take j) s).cmdReady i.rst = false) :
    inp.cmdValid = true ∧ inp.cmdWord = first.cmdWord := by
  induction k generalizing inps s first with
  | zero =>
    rw [List.head?_eq_getElem?] at hfirst
    cases hfirst.symm.trans hinp
    exact ⟨hvalid, rfl⟩
  | succ k ih =>
    match inps with
    | [] => cases hinp
    | [_] => simp at hinp
    | a :: b :: rest =>
      obtain rfl : a = first := Option.some.inj hfirst
      have notReady : s.cmdReady a.rst = false := waiting 0 (Nat.succ_pos k) a rfl
      simp only [holdsOffers, hvalid, notReady, Bool.and_eq_true, Bool.or_eq_true] at holds
      obtain ⟨again, later⟩ := holds
      obtain ⟨againValid, againWord⟩ : b.cmdValid = true ∧ b.cmdWord = a.cmdWord := by simpa using again
      rw [← againWord]
      exact ih later rfl againValid hinp fun j hj i hi => waiting (j + 1) (Nat.succ_lt_succ hj) i hi

theorem runCycles_append (C : Config) (l m : List PortIn) (s : State) :
    runCycles C (l ++ m) s = runCycles C m (runCycles C l s) := by
  induction l generalizing s with
  | nil => rfl
  | cons inp rest ih => exact ih _

/-- Settles O59: the offer is held to the cycle that takes it, and that cycle latches it. -/
theorem heldOfferIsAcceptedUnchanged : Obligations.HeldOfferIsAcceptedUnchanged := by
  intro C inps s k first inp holds hfirst hvalid hinp waiting
  obtain ⟨valid, word⟩ := held_offer C holds hfirst hvalid hinp waiting
  refine ⟨valid, word, fun ready => ?_⟩
  obtain ⟨hk, rfl⟩ := List.getElem?_eq_some_iff.mp hinp
  rw [List.take_succ_eq_append_getElem hk, runCycles_append, ← word]
  exact (congrArg State.cmdLatch (cycle_accept C ready valid)).trans (acceptWord_cmdLatch ..)

/-! ## Reset -/

/-- Settles O20: the power-on state, field by field. -/
theorem powerOnValues : Obligations.PowerOnValues :=
  ⟨rfl, rfl, rfl, rfl, rfl, rfl, rfl, rfl, fun v => by cases v <;> exact ⟨rfl, rfl⟩, rfl, rfl⟩

/-- `CS` is asserted in every phase but three (70 R262). -/
theorem csAsserted_iff (ph : Phase) : csAsserted ph = true ↔ ph ≠ .idle ∧ ph ≠ .pre ∧ ph ≠ .post := by
  cases ph <;> simp [csAsserted]

/-- A second reset changes nothing: after the first, `CS` is not asserted. -/
theorem resetBlock_idem (C : Config) (s : State) : resetBlock C (resetBlock C s) = resetBlock C s := by
  have unasserted : csAsserted (resetBlock C s).pos.phase = false := rfl
  rw [resetBlock, unasserted, Bool.or_false]
  rfl

/-- Settles O21: the reset cycle is `resetBlock`, whatever the state and the inputs. -/
theorem resetCycleFromAnyState : Obligations.ResetCycleFromAnyState := by
  intro C inp s hrst t
  have reset : t = resetBlock C s := cycle_reset C hrst s
  have again : cycle C inp t = t := by rw [cycle_reset C hrst, reset, resetBlock_idem]
  refine ⟨?_, ?_, ?_, ?_, ?_, ?_, ?_, ?_, fun v => ?_, ?_, ?mark, by simp [State.cmdReady], ?_, again⟩
  case mark => rw [reset, resetBlock_devUndefined, Bool.or_eq_true, csAsserted_iff]
  all_goals rw [reset]
  case refine_9 => exact ⟨resetBlock_trk C s v, resetBlock_lastFreq C s v⟩
  all_goals rfl

/-! ## A skipped tick -/

/-- Settles O33: at both levels the word is latched and the response is SKIPPED, and the position was the start already. -/
theorem skippedTickChangesNothing : Obligations.SkippedTickChangesNothing := by
  intro v f s hpos hsettle t
  have skipped : (s.latch (agcTickWord v false f)).respond .skipped 0#16 = t := by
    simp only [t, State.respond, State.latch, ← hpos, ← hsettle]
  refine ⟨congrArg Host.Outcome.next skipped, fun C => ⟨skipped, ?_⟩⟩
  have ready : s.cmdReady false = true := (cmdReady_iff s false).mpr ⟨idle_of_start hpos, rfl⟩
  rw [offer, cycle_accept C ready rfl, acceptWord_of_ok C (decodeWord_agcTickWord v false f), ← skipped]
  rfl

end Sys2Proof.Machine
end

section
/-! SUPPORT, and the proofs of O28 to O30 and O58. A legal state in two halves: the data that commands leave behind, and
where the sequencer stands. Each part of a cycle and each instruction keeps the data in range and ends in IDLE, in PRE, in
the next slot or in COMPUTE (10 R26 to R37, 41 R122, 43 R199). -/

namespace Sys2Proof.Machine

/-! ## The data of a legal state -/

/-- The half of `Inv` that the sequencer does not enter: trackers, offset and history in range. -/
structure DataOk (C : Config) (s : State) : Prop where
  trk      : ∀ v, TrackerOk C (s.trk v)
  gainDiff : -7 ≤ s.gainDiff ∧ s.gainDiff ≤ 86
  history  : historyWf s.history = true

theorem Inv.data {C : Config} {s : State} (h : Inv C s) : DataOk C s := ⟨h.trk, h.gainDiff, h.history⟩

theorem trackerOk_congr {C : Config} {s t : State} (h : ∀ v, TrackerOk C (s.trk v)) (trk0 : t.trk0 = s.trk0 := by rfl)
    (trk1 : t.trk1 = s.trk1 := by rfl) (v : Vfo) : TrackerOk C (t.trk v) := by
  cases v with
  | vfo0 => exact (trk0 ▸ h .vfo0 : TrackerOk C t.trk0)
  | vfo1 => exact (trk1 ▸ h .vfo1 : TrackerOk C t.trk1)

theorem DataOk.congr {C : Config} {s t : State} (h : DataOk C s) (trk0 : t.trk0 = s.trk0 := by rfl)
    (trk1 : t.trk1 = s.trk1 := by rfl) (gainDiff : t.gainDiff = s.gainDiff := by rfl)
    (history : t.history = s.history := by rfl) : DataOk C t :=
  ⟨trackerOk_congr h.trk trk0 trk1, gainDiff ▸ h.gainDiff, history ▸ h.history⟩

/-- A completed transaction's event keeps the data in range. -/
theorem DataOk.appended {C : Config} {s t : State} (h : DataOk C s) {k : EventKind} {a : Addr} {w : Word16} {o : Origin}
    (history : t.history = s.history ++ [⟨s.history.length, k, a, w, o⟩]) (trk0 : t.trk0 = s.trk0 := by rfl)
    (trk1 : t.trk1 = s.trk1 := by rfl) (gainDiff : t.gainDiff = s.gainDiff := by rfl) : DataOk C t :=
  ⟨trackerOk_congr h.trk trk0 trk1, gainDiff ▸ h.gainDiff, history ▸ historyWf_append h.history k a w o⟩

theorem DataOk.agcStep1 {C : Config} {s : State} (h : DataOk C s) (v : Vfo) (f : Word32) : DataOk C (agcStep1 v f s) :=
  ⟨trackerOk_agcStep1 v f h.trk, by simpa using h.gainDiff, by simpa using h.history⟩

theorem DataOk.agcComputeOn {C : Config} {s : State} (h : DataOk C s) (v : Vfo) : DataOk C (agcComputeOn C v s) :=
  ⟨trackerOk_setTrk v h.trk (trackerOk_agcCompute (rssiField_lt C _) (h.trk v)), by simpa using h.gainDiff,
    by simpa using h.history⟩

/-- The offset of an entry is in −7..86, as its gain is in −93..0 (10 R34). -/
theorem gainDiff_range (C : Config) {i : Nat} (hi : i < gainTableLen) :
    -7 ≤ (gainEntry C 0).gain - (gainEntry C i).gain ∧ (gainEntry C 0).gain - (gainEntry C i).gain ≤ 86 := by
  have range := gainEntry_range C hi
  rw [gainEntry_base]
  constructor <;> dsimp only <;> omega

theorem DataOk.agcApply {C : Config} {s : State} (h : DataOk C s) (v : Vfo) : DataOk C (agcApply C v s) :=
  ⟨trackerOk_agcApply v h.trk, gainDiff_range C (h.trk v).idx, by simpa using h.history⟩

/-! ## Where the sequencer may stand -/

/-- The pins of a phase hold their own `SDA` level. -/
theorem phasePins_held (C : Config) (f : Frame) (ph : Phase) (b : Nat) (held : Bool) :
    phasePins C f ph b (phasePins C f ph b held).sdaOut = phasePins C f ph b held := by
  cases ph <;> rfl

/-- The pins between commands, whatever the frame. -/
def quietPins (C : Config) (held : Bool) : Pins := ⟨csLevel C false, false, held, true⟩

/-- Between commands a state is legal with the pins of IDLE and the data in range. -/
theorem inv_of_start {C : Config} {s : State} (data : DataOk C s) (pos : s.pos = Pos.start) (settle : s.settle = 0)
    (pins : s.pins = quietPins C s.pins.sdaOut) : Inv C s where
  idle _ := ⟨pos, settle⟩
  slot h := absurd (by rw [pos]; rfl) h
  command h := absurd (by rw [pos]; rfl) h
  compute h := by rw [pos] at h; cases h
  settle := settle ▸ C.settle_pos
  pins := by rw [pos]; exact pins
  trk := data.trk
  gainDiff := data.gainDiff
  history := data.history

/-- In a phase of the current frame, just entered, a state is legal with the data in range. -/
theorem inv_enterSlot {C : Config} {s : State} {n : Slot} (data : DataOk C s) (slot : n ∈ frameSeq s.txFrame)
    (command : commandReads s.pos.op s.pos.agcStep = some (frameIsRead s.txFrame)) (hstep : s.pos.agcStep ≠ .compute) :
    Inv C (enterSlot C n.1 n.2 s) where
  idle h := absurd slot (by
    obtain ⟨ph, b⟩ := n
    obtain rfl : ph = .idle := h
    exact idle_not_mem_frameSeq _ b)
  slot _ := slot
  command _ := command
  compute h := absurd h hstep
  settle := Nat.sub_lt C.settle_pos Nat.one_pos
  pins := (phasePins_held ..).symm
  trk := trackerOk_congr data.trk
  gainDiff := data.gainDiff
  history := data.history

theorem inv_startFrame {C : Config} {s : State} {f : Frame} (data : DataOk C s)
    (command : commandReads s.pos.op s.pos.agcStep = some (frameIsRead f)) (hstep : s.pos.agcStep ≠ .compute) :
    Inv C (startFrame C f s) :=
  inv_enterSlot (n := (.pre, 0)) data.congr (pre_mem_frameSeq f) command hstep

theorem Inv.pos_of_idle {C : Config} {s : State} (h : Inv C s) (hidle : s.idle = true) : s.pos = Pos.start :=
  (h.idle ((idle_iff s).mp hidle).1).1

theorem Inv.pins_of_idle {C : Config} {s : State} (h : Inv C s) (hidle : s.idle = true) :
    s.pins = quietPins C s.pins.sdaOut := by
  have pins := h.pins
  rw [((idle_iff s).mp hidle).1] at pins
  exact pins

theorem Inv.pins_of_post {C : Config} {s : State} (h : Inv C s) (hpost : s.pos.phase = .post) :
    s.pins = quietPins C s.pins.sdaOut := by
  have pins := h.pins
  rw [hpost] at pins
  exact pins

/-- What a command in progress can be (41 R129, 43 R199). -/
theorem commandReads_cases {op : Op} {step : AgcStep} {rd : Bool} (h : commandReads op step = some rd) :
    (op = .write ∧ step = .done ∧ rd = false) ∨ (op = .read ∧ step = .done ∧ rd = true) ∨
    (op = .agcTick ∧ step = .rdRssi ∧ rd = true) ∨ (op = .agcTick ∧ step = .compute ∧ rd = true) ∨
    (op = .agcTick ∧ step = .wrGain ∧ rd = false) := by
  cases op <;> cases step <;> simp [commandReads] at h ⊢ <;> exact h

/-- Only an AGC_TICK has a COMPUTE cycle. -/
theorem op_of_compute {op : Op} {rd : Bool} (h : commandReads op .compute = some rd) : op = .agcTick := by
  cases op <;> simp [commandReads] at h ⊢

/-! ## A clock cycle -/

theorem inv_resetBlock {C : Config} {s : State} (h : historyWf s.history = true) : Inv C (resetBlock C s) :=
  inv_of_start ⟨fun v => by rw [resetBlock_trk]; exact trackerOk_start C, by rw [resetBlock_gainDiff]; decide, h⟩ rfl rfl rfl

theorem inv_acceptWord {C : Config} {s : State} (h : Inv C s) (hidle : s.idle = true) (c : CmdWord) :
    Inv C (acceptWord C c s) := by
  have latched : DataOk C (s.latch c) := h.data.congr
  have step : s.pos.agcStep = .done := by rw [h.pos_of_idle hidle]; rfl
  have quiet := h.pins_of_idle hidle
  obtain ⟨r, -, e⟩ | ⟨a, d, e⟩ | ⟨a, e⟩ | ⟨v, f, e⟩ | e := acceptWord_cases C c s <;> rw [e]
  · exact inv_of_start latched.congr rfl rfl quiet
  · refine inv_startFrame latched.congr ?_ ?_ <;> simp [step, commandReads]
  · refine inv_startFrame latched.congr ?_ ?_ <;> simp [step, commandReads]
  · refine inv_startFrame (latched.agcStep1 v f).congr ?_ ?_ <;> simp [commandReads]
  · exact inv_of_start latched.congr rfl rfl quiet

theorem inv_computeCycle {C : Config} {s : State} (h : Inv C s) (hstep : s.pos.agcStep = .compute) :
    Inv C (computeCycle C s) := by
  have post := h.compute hstep
  have op : s.pos.op = .agcTick := op_of_compute (hstep ▸ h.command (by rw [post]; decide))
  have computed := h.data.agcComputeOn s.tickVfo
  obtain ⟨-, e⟩ | ⟨-, e⟩ := computeCycle_cases C s <;> rw [e]
  · refine inv_startFrame computed.congr ?_ ?_ <;> simp [op, commandReads]
  · refine inv_of_start computed.congr rfl rfl ?_
    simpa using h.pins_of_post post

/-- The end of a transaction: back in IDLE, or on POST in the COMPUTE cycle (log entry 14). -/
theorem inv_endTransaction {C : Config} {s : State} (h : Inv C s) (hpost : s.pos.phase = .post)
    (hstep : s.pos.agcStep ≠ .compute) : Inv C (endTransaction C s) := by
  have notIdle : s.pos.phase ≠ .idle := by rw [hpost]; decide
  have recorded : DataOk C s.recorded := h.data.appended rfl
  have quiet := h.pins_of_post hpost
  obtain ⟨op, -, -⟩ | ⟨op, -, -⟩ | ⟨op, step, read⟩ | ⟨-, step, -⟩ | ⟨op, step, -⟩ :=
    commandReads_cases (h.command notIdle)
  · rw [endTransaction_write C op]
    exact inv_of_start recorded.congr rfl rfl quiet
  · rw [endTransaction_read C op]
    exact inv_of_start recorded.congr rfl rfl quiet
  · rw [endTransaction_rdRssi C op step]
    exact {
      idle := fun k => absurd k notIdle
      slot := fun _ => h.slot notIdle
      command := fun _ => (congrArg (commandReads · .compute) op).trans (congrArg some read.symm)
      compute := fun _ => hpost
      settle := h.settle
      pins := h.pins
      trk := trackerOk_congr recorded.trk
      gainDiff := recorded.gainDiff
      history := recorded.history }
  · exact absurd step hstep
  · rw [endTransaction_wrGain C op step]
    refine inv_of_start (recorded.agcApply s.tickVfo).congr rfl rfl ?_
    rw [State.respond_pins, agcApply_pins]
    exact quiet

theorem inv_phaseCycle {C : Config} {s : State} (h : Inv C s) (hphase : s.pos.phase ≠ .idle)
    (hstep : s.pos.agcStep ≠ .compute) (line : Bool) : Inv C (phaseCycle C line s) := by
  obtain ⟨-, e⟩ | ⟨-, n, hn, e⟩ | ⟨-, hn, e⟩ := phaseCycle_cases C line s <;> rw [e]
  · exact { h with
      idle := fun k => absurd k hphase
      settle := Nat.lt_of_le_of_lt (Nat.sub_le ..) h.settle
      trk := trackerOk_congr h.trk }
  · exact inv_enterSlot h.data.congr (nextSlot_mem_frameSeq (h.slot hphase) hn)
      (h.command hphase) hstep
  · have post := (nextSlot_none hn).resolve_left hphase
    have sampled : Inv C (s.sampled line) := { h with trk := trackerOk_congr h.trk }
    exact inv_endTransaction sampled post hstep

theorem inv_idleCycle {C : Config} {s : State} (h : Inv C s) : Inv C s.idleCycle :=
  { h with trk := trackerOk_congr h.trk }

/-- Settles O30: each of the five kinds of cycle keeps the invariant. -/
theorem cycleKeepsTheStateLegal : Obligations.CycleKeepsTheStateLegal := by
  intro C inp s h
  obtain ⟨-, e⟩ | ⟨hready, -, e⟩ | ⟨-, -, e⟩ | ⟨-, hstep, e⟩ | ⟨-, hphase, hstep, e⟩ := cycle_kinds C inp s <;> rw [e]
  · exact inv_resetBlock h.history
  · exact inv_acceptWord h ((cmdReady_iff s _).mp hready).1 _
  · exact inv_idleCycle h
  · exact inv_computeCycle h hstep
  · exact inv_phaseCycle h hphase hstep _

/-- Settles O29: the power-on state is between commands, with every tracker at its start. -/
theorem powerOnStateIsLegal : Obligations.PowerOnStateIsLegal :=
  inv_of_start ⟨fun v => by cases v <;> exact trackerOk_start _, by decide, rfl⟩ rfl rfl rfl

/-! ## A step -/

theorem inv_busWriteOn {C : Config} {s : State} (h : DataOk C s) (a : Addr) (d : Word16) : Inv C (busWriteOn C a d s) :=
  inv_of_start (h.appended (busWriteOn_history ..)) rfl rfl (by simp [quietPins])

theorem inv_busReadOn {C : Config} {s : State} (h : DataOk C s) (a : Addr) : Inv C (busReadOn C a s) :=
  inv_of_start (h.appended (busReadOn_history ..)) rfl rfl (by simp [quietPins])

theorem inv_give {C : Config} {s : State} (h : Inv C s) (r : HostResult) : Inv C (s.give r) :=
  { h with trk := trackerOk_congr h.trk }

theorem inv_withPort {C : Config} {s : State} (h : Inv C s) (moves : List Request) : Inv C { s with port := moves } :=
  { h with trk := trackerOk_congr h.trk }

theorem HostRun.inv {C : Config} {s t : State} (run : HostRun C s t) (h : Inv C s) : Inv C t := by
  induction run with
  | start => exact h
  | write a d _ ih => exact inv_busWriteOn ih.data a d
  | read a _ ih => exact inv_busReadOn ih.data a
  | give r _ ih => exact inv_give ih r

theorem inv_frameWriteOn {C : Config} {s : State} (h : DataOk C s) (a : Addr) (d : Word16) :
    Inv C (frameWriteOn C a d s) := by
  rw [frameWriteOn_eq]
  exact inv_of_start (h.appended rfl) rfl rfl rfl

theorem inv_frameReadOn {C : Config} {s : State} (h : DataOk C s) (a : Addr) (d : Word16) :
    Inv C (frameReadOn C a d s) := by
  rw [frameReadOn_eq]
  exact inv_of_start (h.appended rfl) rfl rfl rfl

theorem dataOk_agcReadRssi {C : Config} {s : State} (h : DataOk C s) (v : Vfo) : DataOk C (agcReadRssi C v s) :=
  h.appended (agcReadRssi_history ..)

theorem dataOk_regWrite {C : Config} {s : State} (h : DataOk C s) (a : Addr) (d : Word16) (o : Origin) :
    DataOk C (regWrite C a d o s) :=
  h.appended (regWrite_history ..)

theorem inv_agcTickOn_board {s : State} (h : Inv Config.board s) (hidle : s.idle = true) (v : Vfo) (rx : Bool)
    (f : Word32) : Inv Config.board (agcTickOn Config.board v rx f s) := by
  have latched (rx : Bool) : DataOk Config.board (s.latch (agcTickWord v rx f)) := h.data.congr
  cases rx with
  | false =>
    rw [agcTickOn_skipped]
    exact inv_of_start (latched false).congr rfl rfl (h.pins_of_idle hidle)
  | true =>
    have computed := (dataOk_agcReadRssi ((latched true).agcStep1 v f) v).agcComputeOn v
    have applied (d : Word16) := (dataOk_regWrite computed Config.board.gainReg d (.agc v)).agcApply v
    rw [agcTickOn_board_receiving]
    exact inv_of_start (applied _).congr rfl rfl (by simp [quietPins])

theorem executed_inv {s t : State} {i : Instr} (executed : Executed s i t) (h : Inv Config.board s)
    (hidle : s.idle = true) : Inv Config.board t := by
  cases executed with
  | host run => exact run.inv h
  | frameWrite a d => exact inv_frameWriteOn h.data a d
  | frameRead a d => exact inv_frameReadOn h.data a d
  | agcTick v rx f => exact inv_agcTickOn_board h hidle v rx f

/-- Settles O28: each kind of step keeps the invariant. -/
theorem stepKeepsTheStateLegal : Obligations.StepKeepsTheStateLegal := by
  intro s t h hstep
  obtain ⟨u, hu, kind⟩ := step_kinds s
  cases hstep.symm.trans hu
  obtain rfl | ⟨rest, rfl⟩ | ⟨-, rfl⟩ | ⟨hidle, c, r, rest, rfl⟩ | ⟨hidle, i, rest, executed⟩ := kind
  · exact cycleKeepsTheStateLegal Config.board _ s h
  · exact inv_resetBlock h.history
  · exact inv_idleCycle h
  · exact inv_of_start h.data.congr rfl rfl (h.pins_of_idle hidle)
  · exact executed_inv executed (inv_withPort h rest) hidle

/-! ## Spared transactions -/

/-- With `CS` asserted a transaction is in flight: the COMPUTE cycle stands on POST. -/
theorem inFlight_of_csAsserted {C : Config} {s : State} (h : Inv C s) (hcs : csAsserted s.pos.phase = true) :
    s.inFlight = true := by
  obtain ⟨notIdle, -, notPost⟩ := (csAsserted_iff _).mp hcs
  have notCompute : s.pos.agcStep ≠ .compute := fun k => notPost (h.compute k)
  simp [State.inFlight, notIdle, notCompute]

/-- Settles O58: by induction on the cycles, with the invariant of O30; a spared reset finds `CS` deasserted. -/
theorem sparedTransactionsLeaveTheSlaveDefined : Obligations.SparedTransactionsLeaveTheSlaveDefined := by
  intro C inps
  induction inps with
  | nil => exact fun s _ defined _ => defined
  | cons inp rest ih =>
    intro s h defined spares
    rw [sparesTransactions, Bool.and_eq_true] at spares
    obtain ⟨spared, later⟩ := spares
    refine ih _ (cycleKeepsTheStateLegal C inp s h) ?_ later
    show (cycle C inp s).devUndefined = false
    rw [cycle_devUndefined, show s.devUndefined = false from defined, Bool.false_or]
    by_contra cut
    rw [Bool.not_eq_false, Bool.and_eq_true] at cut
    obtain ⟨hrst, hcs⟩ := cut
    simp [hrst, inFlight_of_csAsserted h hcs] at spared

end Sys2Proof.Machine
end

section
/-! SUPPORT, and the proofs of O14 to O16 and O19. A transaction run cycle by cycle: `SETTLE_CYCLES` cycles in each slot of
its chain, and after the last slot the pins and `rxShift` of `runWire`. The latencies, the refinement of the transaction
level and the bound on every command follow (41 R121 to R125, R129, 43 R199, 70 R281). -/

namespace Sys2Proof.Machine

/-! ## Cycles against the slave -/

theorem clock_phase (C : Config) {s : State} (hphase : s.pos.phase ≠ .idle) (hstep : s.pos.agcStep ≠ .compute) :
    clock C s = phaseCycle C (slaveBit C s) s := cycle_phase C rfl hphase hstep

theorem clock_compute (C : Config) {s : State} (hstep : s.pos.agcStep = .compute) : clock C s = computeCycle C s :=
  cycle_compute C rfl hstep

theorem clockN_add (C : Config) (m n : Nat) (s : State) : clockN C (m + n) s = clockN C n (clockN C m s) := by
  induction m generalizing s with
  | zero => rw [Nat.zero_add, clockN]
  | succ m ih => rw [Nat.succ_add, clockN, clockN, ih]

theorem clockN_one (C : Config) (s : State) : clockN C 1 s = clock C s := rfl

theorem offer_eq (C : Config) (c : CmdWord) {s : State} (hpos : s.pos = Pos.start) : offer C c s = acceptWord C c s :=
  cycle_accept C ((cmdReady_iff s false).mpr ⟨idle_of_start hpos, rfl⟩) rfl

/-! ## One slot -/

/-- The settle count runs down and nothing else changes (41 R121). -/
theorem clockN_counting (C : Config) {j : Nat} {s : State} (hphase : s.pos.phase ≠ .idle)
    (hstep : s.pos.agcStep ≠ .compute) (hj : j ≤ s.settle) : clockN C j s = { s with settle := s.settle - j } := by
  induction j generalizing s with
  | zero => rfl
  | succ j ih =>
    rw [clockN, clock_phase C hphase hstep, phaseCycle_counting C _ (by omega)]
    refine (ih (s := { s with settle := s.settle - 1 }) hphase hstep (Nat.le_sub_one_of_lt hj)).trans ?_
    rw [Nat.sub_sub, Nat.add_comm 1 j]

/-- The last cycle of a slot entered from `s`, with its sample taken. -/
def slotDone (C : Config) (s : State) (sl : Slot) : State :=
  let u : State := { enterSlot C sl.1 sl.2 s with settle := 0 }
  u.sampled (slaveBit C u)

theorem clockN_in_slot (C : Config) {s : State} {sl : Slot} (hsl : sl.1 ≠ .idle) (hstep : s.pos.agcStep ≠ .compute)
    {j : Nat} (hj : j < C.settleCycles) : clockN C j (enterSlot C sl.1 sl.2 s)
      = { enterSlot C sl.1 sl.2 s with settle := C.settleCycles - 1 - j } :=
  clockN_counting C hsl hstep (Nat.le_sub_one_of_lt hj)

/-- The last cycle of a slot: its sample, and then the next slot or the end of the transaction. -/
theorem clockN_slot (C : Config) {s : State} {sl : Slot} (hsl : sl.1 ≠ .idle) (hstep : s.pos.agcStep ≠ .compute) :
    clockN C C.settleCycles (enterSlot C sl.1 sl.2 s) = match nextSlot (frameIsRead s.txFrame) sl.1 sl.2 with
      | some n => enterSlot C n.1 n.2 (slotDone C s sl)
      | none => endTransaction C (slotDone C s sl) := by
  have last := clockN_in_slot C hsl hstep (Nat.sub_lt C.settle_pos Nat.one_pos)
  rw [Nat.sub_self] at last
  rw [← Nat.sub_add_cancel C.settle_pos, clockN_add, last, clockN_one]
  refine (clock_phase C (s := { enterSlot C sl.1 sl.2 s with settle := 0 }) hsl hstep).trans ?_
  cases hn : nextSlot (frameIsRead s.txFrame) sl.1 sl.2 with
  | some n => exact phaseCycle_next C _ rfl hn
  | none => exact phaseCycle_end C _ rfl hn

/-! ## A chain of slots -/

/-- Each slot of the list is followed by its `nextSlot`, the last by none, and none is IDLE. -/
def IsChain (rd : Bool) (l : List Slot) : Prop :=
  ∀ (k : Nat) (sl : Slot), l[k]? = some sl → sl.1 ≠ .idle ∧ nextSlot rd sl.1 sl.2 = l[k + 1]?

theorem IsChain.drop {rd : Bool} {l : List Slot} (h : IsChain rd l) (n : Nat) : IsChain rd (l.drop n) := by
  intro k sl hk
  rw [List.getElem?_drop] at hk ⊢
  exact h _ _ hk

theorem isChain_frameSeq (f : Frame) : IsChain (frameIsRead f) (frameSeq f) := fun _ sl h =>
  ⟨fun hidle => idle_not_mem_frameSeq f sl.2 (hidle ▸ List.mem_of_getElem? h), nextSlot_of_frameSeq h⟩

/-- The state after the slots `l` from `s`, each with its sample. -/
def slotsDone (C : Config) (l : List Slot) (s : State) : State := l.foldl (slotDone C) s

section
variable (C : Config)

@[simp] theorem slotsDone_nil (s : State) : slotsDone C [] s = s := rfl

@[simp] theorem slotsDone_cons (sl : Slot) (l : List Slot) (s : State) :
    slotsDone C (sl :: l) s = slotsDone C l (slotDone C s sl) := rfl

/-- At the first cycle of slot `k` of a chain, the `k` slots before it are done. -/
theorem clockN_chain {l : List Slot} {s : State} (hchain : IsChain (frameIsRead s.txFrame) l)
    (hstep : s.pos.agcStep ≠ .compute) {first n : Slot} (hfirst : l[0]? = some first) {k : Nat} (hk : l[k]? = some n) :
    clockN C (k * C.settleCycles) (enterSlot C first.1 first.2 s) = enterSlot C n.1 n.2 (slotsDone C (l.take k) s) := by
  induction k generalizing l s first with
  | zero =>
    cases hfirst.symm.trans hk
    rw [Nat.zero_mul]
    rfl
  | succ k ih =>
    cases l with
    | nil => cases hk
    | cons head rest =>
      obtain rfl : first = head := (Option.some.inj hfirst).symm
      obtain ⟨hsl, hnext⟩ := hchain 0 first rfl
      obtain ⟨second, hsecond⟩ : ∃ second, rest[0]? = some second := by
        obtain ⟨hlt, -⟩ := List.getElem?_eq_some_iff.mp (show rest[k]? = some n from hk)
        exact ⟨rest[0], List.getElem?_eq_getElem (by omega)⟩
      rw [Nat.succ_mul, Nat.add_comm, clockN_add, clockN_slot C hsl hstep, hnext]
      simp only [Nat.zero_add, List.getElem?_cons_succ, hsecond]
      exact ih (s := slotDone C s first) (hchain.drop 1) hstep hsecond hk

/-- After its last slot a chain's transaction ends. -/
theorem clockN_chain_end {l : List Slot} {s : State} (hchain : IsChain (frameIsRead s.txFrame) l)
    (hstep : s.pos.agcStep ≠ .compute) {first : Slot} (hfirst : l[0]? = some first) :
    clockN C (l.length * C.settleCycles) (enterSlot C first.1 first.2 s) = endTransaction C (slotsDone C l s) := by
  induction l generalizing s first with
  | nil => cases hfirst
  | cons head rest ih =>
    obtain rfl : first = head := (Option.some.inj hfirst).symm
    obtain ⟨hsl, hnext⟩ := hchain 0 first rfl
    rw [List.length_cons, Nat.succ_mul, Nat.add_comm, clockN_add, clockN_slot C hsl hstep, hnext]
    cases rest with
    | nil => rw [List.length_nil, Nat.zero_mul]; rfl
    | cons second rest => exact ih (s := slotDone C s first) (hchain.drop 1) hstep rfl

/-! ## What the slots leave -/

theorem slotsDone_op (l : List Slot) (s : State) : (slotsDone C l s).pos.op = s.pos.op := by
  induction l generalizing s with
  | nil => rfl
  | cons sl rest ih => exact ih _

theorem slotsDone_agcStep (l : List Slot) (s : State) : (slotsDone C l s).pos.agcStep = s.pos.agcStep := by
  induction l generalizing s with
  | nil => rfl
  | cons sl rest ih => exact ih _

/-- Slots change the position, the settle count, the pins and `rxShift`, and nothing else. -/
theorem slotsDone_frame (l : List Slot) (s : State) : slotsDone C l s = { s with
    pos     := (slotsDone C l s).pos
    settle  := (slotsDone C l s).settle
    pins    := (slotsDone C l s).pins
    rxShift := (slotsDone C l s).rxShift } := by
  induction l generalizing s with
  | nil => rfl
  | cons sl rest ih => exact ih _

theorem slotsDone_txFrame (l : List Slot) (s : State) : (slotsDone C l s).txFrame = s.txFrame := by
  rw [slotsDone_frame]

theorem slotsDone_rsp (l : List Slot) (s : State) : (slotsDone C l s).rsp = s.rsp := by
  rw [slotsDone_frame]

/-- The pins and `rxShift` of the clock level are those of the transaction level's wire (41 R122, R125). -/
theorem slotsDone_wire (l : List Slot) (s : State) : ((slotsDone C l s).pins, (slotsDone C l s).rxShift)
    = l.foldl (runSlot C s.txFrame (C.oracle (frameAddr s.txFrame) s.history)) (s.pins, s.rxShift) := by
  induction l generalizing s with
  | nil => rfl
  | cons sl rest ih => exact ih _

/-- The pins before slot `k` are those of the wave. -/
theorem wave_slotsDone {l : List Slot} {k : Nat} (hk : k ≤ l.length) (s : State) :
    (s.pins :: wave C s.txFrame s.pins l)[k]? = some (slotsDone C (l.take k) s).pins := by
  induction l generalizing s k with
  | nil =>
    obtain rfl : k = 0 := by simpa using hk
    rfl
  | cons sl rest ih =>
    cases k with
    | zero => rfl
    | succ k => exact ih (Nat.le_of_succ_le_succ hk) (slotDone C s sl)

end

/-! ## A whole transaction -/

/-- The last cycle of a transaction's POST: the wire has run (41 R123, R124). -/
def transactionDone (C : Config) (s : State) : State :=
  let wire := runWire C s.txFrame (C.oracle (frameAddr s.txFrame) s.history) (s.pins, s.rxShift)
  { s with pos := { s.pos with phase := .post, bit := 23 }, settle := 0, pins := wire.1, rxShift := wire.2 }

theorem frameSeq_last (f : Frame) : ∃ l, frameSeq f = l ++ [(.post, 23)] := by
  cases h : frameIsRead f with
  | false => exact ⟨writeSeq.dropLast, by rw [frameSeq_write h]; decide⟩
  | true => exact ⟨readSeq.dropLast, by rw [frameSeq_read h]; decide⟩

theorem slotsDone_frameSeq (C : Config) (s : State) : slotsDone C (frameSeq s.txFrame) s = transactionDone C s := by
  have wire := slotsDone_wire C (frameSeq s.txFrame) s
  have pins := congrArg Prod.fst wire
  have rxShift := congrArg Prod.snd wire
  obtain ⟨l, hl⟩ := frameSeq_last s.txFrame
  have last : slotsDone C (frameSeq s.txFrame) s = slotDone C (slotsDone C l s) (.post, 23) := by
    rw [hl, slotsDone, List.foldl_append]
    rfl
  have pos : (slotsDone C (frameSeq s.txFrame) s).pos = { s.pos with phase := .post, bit := 23 } := by
    rw [last]
    show (⟨(slotsDone C l s).pos.op, .post, 23, (slotsDone C l s).pos.agcStep⟩ : Pos) = _
    rw [slotsDone_op, slotsDone_agcStep]
  have settle : (slotsDone C (frameSeq s.txFrame) s).settle = 0 := by rw [last]; rfl
  rw [slotsDone_frame, pos, settle]
  exact congrArg₂ (fun p r => { s with
    pos := { s.pos with phase := .post, bit := 23 }, settle := 0, pins := p, rxShift := r }) pins rxShift

/-- A transaction of `n` slots ends after `n × SETTLE_CYCLES` cycles. -/
theorem clockN_transaction (C : Config) {s : State} (hstep : s.pos.agcStep ≠ .compute) :
    clockN C ((frameSeq s.txFrame).length * C.settleCycles) (enterSlot C .pre 0 s)
      = endTransaction C (transactionDone C s) := by
  rw [← slotsDone_frameSeq]
  exact clockN_chain_end C (isChain_frameSeq _) hstep (frameSeq_head _)

/-- Cycle `k × SETTLE_CYCLES + j` of a transaction is cycle `j` of slot `k`. -/
theorem clockN_within (C : Config) {s : State} (hstep : s.pos.agcStep ≠ .compute) {k j : Nat} {sl : Slot}
    (hk : (frameSeq s.txFrame)[k]? = some sl) (hj : j < C.settleCycles) :
    clockN C (k * C.settleCycles + j) (enterSlot C .pre 0 s) =
      { enterSlot C sl.1 sl.2 (slotsDone C ((frameSeq s.txFrame).take k) s) with settle := C.settleCycles - 1 - j } := by
  have chain := isChain_frameSeq s.txFrame
  rw [clockN_add, clockN_chain C chain hstep (first := (.pre, 0)) (frameSeq_head _) hk]
  exact clockN_in_slot C (chain k sl hk).1 (by rwa [slotsDone_agcStep]) hj

theorem runsThePhases_enter (C : Config) {s : State} (hstep : s.pos.agcStep ≠ .compute) :
    RunsThePhases C s.pins (enterSlot C .pre 0 s) := by
  intro k j sl hk hj u
  have cycle : u = _ := clockN_within C hstep hk hj
  have pos : u.pos = ⟨s.pos.op, sl.1, sl.2, s.pos.agcStep⟩ := by
    rw [cycle, ← slotsDone_op C ((frameSeq s.txFrame).take k) s, ← slotsDone_agcStep C ((frameSeq s.txFrame).take k) s]
    rfl
  have frame : u.txFrame = s.txFrame := by
    rw [cycle]
    exact slotsDone_txFrame ..
  have pins : u.pins = phasePins C s.txFrame sl.1 sl.2 (slotsDone C ((frameSeq s.txFrame).take k) s).pins.sdaOut := by
    rw [cycle]
    exact congrArg (phasePins C · sl.1 sl.2 _) (slotsDone_txFrame ..)
  refine ⟨pos, by rw [cycle], frame, ?_⟩
  obtain ⟨hlt, -⟩ := List.getElem?_eq_some_iff.mp hk
  obtain ⟨before, hbefore, hpins⟩ := wave_getElem? C s.txFrame s.pins _ k hk
  cases Option.some.inj (hbefore.symm.trans (wave_slotsDone C hlt.le s))
  exact hpins.trans (congrArg some pins.symm)

/-- Within a transaction the response stays as it was. -/
theorem rsp_within (C : Config) {s : State} (hstep : s.pos.agcStep ≠ .compute) {n : Nat}
    (hn : n < (frameSeq s.txFrame).length * C.settleCycles) : (clockN C n (enterSlot C .pre 0 s)).rsp = s.rsp := by
  have hk : n / C.settleCycles < (frameSeq s.txFrame).length := Nat.div_lt_of_lt_mul (Nat.mul_comm .. ▸ hn)
  have cycle := clockN_within C hstep (List.getElem?_eq_getElem hk) (Nat.mod_lt n C.settle_pos)
  rw [Nat.mul_comm, Nat.div_add_mod] at cycle
  rw [cycle]
  exact slotsDone_rsp ..

theorem frameSeq_writeFrame_length (a : Addr) (d : Word16) : (frameSeq (writeFrame a d)).length = 76 := by
  rw [frameSeq_write (frameIsRead_writeFrame a d), writeSeq_length]

theorem frameSeq_readFrame_length (a : Addr) (d : Word16) : (frameSeq (readFrame a d)).length = 61 := by
  rw [frameSeq_read (frameIsRead_readFrame a d), readSeq_length]

/-! ## Bus commands -/

/-- The state from which an accepted BUS_WRITE enters PRE (41 R129). -/
def writeStart (a : Addr) (d : Word16) (s : State) : State :=
  { s.latch (busWriteWord a d) with pos := { s.pos with op := .write }, txFrame := writeFrame a d }

theorem offer_busWriteWord (C : Config) (a : Addr) (d : Word16) {s : State} (hpos : s.pos = Pos.start) :
    offer C (busWriteWord a d) s = enterSlot C .pre 0 (writeStart a d s) := by
  rw [offer_eq C _ hpos, acceptWord_of_ok C (decodeWord_busWriteWord a d)]
  rfl

/-- The end of a BUS_WRITE's transaction is the state of the transaction level. -/
theorem endTransaction_writeStart (C : Config) (a : Addr) (d : Word16) (s : State) :
    endTransaction C (transactionDone C (writeStart a d s)) = busWriteOn C a d s := by
  rw [endTransaction_write C rfl, busWriteOn_eq]
  simp [transactionDone, writeStart, State.recorded, endEvent, State.respond, State.origin, State.latch,
    runWire_write C (frameIsRead_writeFrame a d)]

/-- Settles O14: the transaction from `writeStart`, run cycle by cycle. -/
theorem busWriteLatencyAndRefinement : Obligations.BusWriteLatencyAndRefinement := by
  intro C a d s hpos _
  have hstep : (writeStart a d s).pos.agcStep ≠ .compute := by simp [writeStart, hpos, Pos.start]
  have cycles : (frameSeq (writeStart a d s).txFrame).length = 76 := frameSeq_writeFrame_length a d
  have run := clockN_transaction C hstep
  rw [offer_busWriteWord C a d hpos]
  rw [cycles, endTransaction_writeStart] at run
  refine ⟨run, fun n hn => ?_, rfl, by simp [enterSlot, writeStart, hpos, Pos.start], runsThePhases_enter C hstep⟩
  rw [rsp_within C hstep (by rwa [cycles])]
  rfl

/-- The state from which an accepted BUS_READ enters PRE (41 R129). -/
def readStart (a : Addr) (s : State) : State :=
  { s.latch (busReadWord a) with pos := { s.pos with op := .read }, txFrame := readFrame a 0#16 }

theorem offer_busReadWord (C : Config) (a : Addr) {s : State} (hpos : s.pos = Pos.start) :
    offer C (busReadWord a) s = enterSlot C .pre 0 (readStart a s) := by
  rw [offer_eq C _ hpos, acceptWord_of_ok C (decodeWord_busReadWord a)]
  rfl

/-- The end of a BUS_READ's transaction is the state of the transaction level. -/
theorem endTransaction_readStart (C : Config) (a : Addr) (s : State) :
    endTransaction C (transactionDone C (readStart a s)) = busReadOn C a s := by
  rw [endTransaction_read C rfl, busReadOn_eq]
  simp [transactionDone, readStart, State.recorded, endEvent, State.respond, State.origin, State.latch,
    runWire_read C (frameIsRead_readFrame a 0#16)]

/-- Settles O15: the transaction from `readStart`, run cycle by cycle. -/
theorem busReadLatencyAndRefinement : Obligations.BusReadLatencyAndRefinement := by
  intro C a s hpos _
  have hstep : (readStart a s).pos.agcStep ≠ .compute := by simp [readStart, hpos, Pos.start]
  have cycles : (frameSeq (readStart a s).txFrame).length = 61 := frameSeq_readFrame_length a 0#16
  have run := clockN_transaction C hstep
  rw [offer_busReadWord C a hpos]
  rw [cycles, endTransaction_readStart] at run
  refine ⟨run, fun n hn => ?_, rfl, by simp [enterSlot, readStart, hpos, Pos.start], runsThePhases_enter C hstep⟩
  rw [rsp_within C hstep (by rwa [cycles])]
  rfl

end Sys2Proof.Machine
end

section
/-! SUPPORT, and the proofs of O16 and O19. A receiving tick cycle by cycle: the RSSI read's transaction, the COMPUTE cycle,
and the gain write's transaction if there is one; and the bound on every command that follows (41 R118, 43 R199, 70 R281). -/

namespace Sys2Proof.Machine

/-! ## The tick at the transaction level, with and without its gain write -/

theorem agcTickOn_of_writes (C : Config) {v : Vfo} {f : Word32} {s : State} :
    let computed := tickComputed C v f (s.latch (agcTickWord v true f))
    agcWrites C (computed.trk v) = true → agcTickOn C v true f s =
      (agcApply C v (regWrite C C.gainReg (gainEntry C (computed.trk v).idx).reg (.agc v) computed)).respond .ok
        computed.agcRaw := by
  intro computed h
  rw [agcTickOn, if_pos rfl, agcRun_eq, agcStep8_of_writes h, agcApply_agcRaw, regWrite_agcRaw]

theorem agcTickOn_of_no_write (C : Config) {v : Vfo} {f : Word32} {s : State} :
    let computed := tickComputed C v f (s.latch (agcTickWord v true f))
    agcWrites C (computed.trk v) = false → agcTickOn C v true f s = computed.respond .ok computed.agcRaw := by
  intro computed h
  rw [agcTickOn, if_pos rfl, agcRun_eq, agcStep8_of_no_write h]

/-! ## The states of a tick at the clock level -/

/-- The state from which an accepted receiving AGC_TICK enters PRE: step 1 is done (43 R190, R199). -/
def tickStart (C : Config) (v : Vfo) (f : Word32) (s : State) : State :=
  { agcStep1 v f (s.latch (agcTickWord v true f)) with
    pos := { s.pos with op := .agcTick, agcStep := .rdRssi }, txFrame := readFrame C.rssiReg 0#16 }

/-- The state in the COMPUTE cycle (log entry 14). -/
def tickComputing (C : Config) (v : Vfo) (f : Word32) (s : State) : State :=
  { agcReadRssi C v (agcStep1 v f (s.latch (agcTickWord v true f))) with
    pos := ⟨.agcTick, .post, 23, .compute⟩, settle := 0 }

/-- The state from which the gain write enters PRE: steps 2 to 7 are done (43 R199). -/
def gainStart (C : Config) (v : Vfo) (f : Word32) (s : State) : State :=
  let computed := tickComputed C v f (s.latch (agcTickWord v true f))
  { computed with
    pos := ⟨.agcTick, .post, 23, .wrGain⟩, settle := 0,
    txFrame := writeFrame C.gainReg (gainEntry C (computed.trk v).idx).reg }

theorem offer_agcTickWord (C : Config) (v : Vfo) (f : Word32) {s : State} (hpos : s.pos = Pos.start) :
    offer C (agcTickWord v true f) s = enterSlot C .pre 0 (tickStart C v f s) := by
  rw [offer_eq C _ hpos, acceptWord_of_ok C (decodeWord_agcTickWord v true f), startCommand, if_pos rfl]
  rfl

theorem endTransaction_tickStart (C : Config) (v : Vfo) (f : Word32) (s : State) :
    endTransaction C (transactionDone C (tickStart C v f s)) = tickComputing C v f s := by
  rw [endTransaction_rdRssi C rfl rfl, tickComputing, agcReadRssi, regRead_eq]
  simp [transactionDone, tickStart, State.recorded, endEvent, State.origin,
    runWire_read C (frameIsRead_readFrame C.rssiReg 0#16)]

theorem tickComputing_tickVfo (C : Config) (v : Vfo) (f : Word32) (s : State) : (tickComputing C v f s).tickVfo = v := by
  simp [State.tickVfo, tickComputing]

theorem gainStart_tickVfo (C : Config) (v : Vfo) (f : Word32) (s : State) : (gainStart C v f s).tickVfo = v := by
  simp [State.tickVfo, gainStart]

theorem agcComputeOn_tickComputing (C : Config) (v : Vfo) (f : Word32) (s : State) :
    agcComputeOn C v (tickComputing C v f s) = { tickComputed C v f (s.latch (agcTickWord v true f)) with
      pos := ⟨.agcTick, .post, 23, .compute⟩, settle := 0 } := by
  cases v <;> rfl

/-- The COMPUTE cycle of a tick that writes starts the gain write. -/
theorem computeCycle_tickComputing_of_writes (C : Config) {v : Vfo} {f : Word32} {s : State}
    (h : agcWrites C ((tickComputed C v f (s.latch (agcTickWord v true f))).trk v) = true) :
    computeCycle C (tickComputing C v f s) = enterSlot C .pre 0 (gainStart C v f s) := by
  have computed := agcComputeOn_tickComputing C v f s
  have trk : (agcComputeOn C v (tickComputing C v f s)).trk v
      = (tickComputed C v f (s.latch (agcTickWord v true f))).trk v := by rw [computed]; cases v <;> rfl
  rcases computeCycle_cases C (tickComputing C v f s) with ⟨-, e⟩ | ⟨no, -⟩
  · rw [e, tickComputing_tickVfo, trk, computed]
    rfl
  · rw [tickComputing_tickVfo, trk, h] at no
    cases no

/-- The COMPUTE cycle of a tick that does not write completes it. -/
theorem computeCycle_tickComputing_of_no_write (C : Config) {v : Vfo} {f : Word32} {s : State}
    (h : agcWrites C ((tickComputed C v f (s.latch (agcTickWord v true f))).trk v) = false) :
    computeCycle C (tickComputing C v f s) = agcTickOn C v true f s := by
  have computed := agcComputeOn_tickComputing C v f s
  have trk : (agcComputeOn C v (tickComputing C v f s)).trk v
      = (tickComputed C v f (s.latch (agcTickWord v true f))).trk v := by rw [computed]; cases v <;> rfl
  rcases computeCycle_cases C (tickComputing C v f s) with ⟨yes, -⟩ | ⟨-, e⟩
  · rw [tickComputing_tickVfo, trk, h] at yes
    cases yes
  · rw [e, tickComputing_tickVfo, computed, agcTickOn_of_no_write C h]
    cases v <;> rfl

/-- The end of the gain write is the state of the transaction level. -/
theorem endTransaction_gainStart (C : Config) {v : Vfo} {f : Word32} {s : State}
    (h : agcWrites C ((tickComputed C v f (s.latch (agcTickWord v true f))).trk v) = true) :
    endTransaction C (transactionDone C (gainStart C v f s)) = agcTickOn C v true f s := by
  have vfo : (transactionDone C (gainStart C v f s)).tickVfo = v := gainStart_tickVfo C v f s
  have recorded : (transactionDone C (gainStart C v f s)).recorded =
      { regWrite C C.gainReg (gainEntry C ((tickComputed C v f (s.latch (agcTickWord v true f))).trk v).idx).reg (.agc v)
          (tickComputed C v f (s.latch (agcTickWord v true f))) with
        pos := ⟨.agcTick, .post, 23, .wrGain⟩, settle := 0 } := by
    rw [regWrite_eq]
    simp [transactionDone, gainStart, State.recorded, endEvent, State.origin,
      runWire_write C (frameIsRead_writeFrame _ _)]
  rw [endTransaction_wrGain C rfl rfl, vfo, agcTickOn_of_writes C h, recorded]
  cases v <;> rfl

/-! ## The latency of a tick -/

/-- Whether the gain write runs is seen in the history: two events, or one. -/
theorem agcTickOn_history_length (C : Config) (v : Vfo) (f : Word32) (s : State) :
    (agcTickOn C v true f s).history.length = s.history.length + 2 ↔
      agcWrites C ((tickComputed C v f (s.latch (agcTickWord v true f))).trk v) = true := by
  cases h : agcWrites C ((tickComputed C v f (s.latch (agcTickWord v true f))).trk v) with
  | true => simp [agcTickOn_of_writes C h]
  | false => simp [agcTickOn_of_no_write C h]

theorem tickStart_not_compute (C : Config) (v : Vfo) (f : Word32) (s : State) :
    (tickStart C v f s).pos.agcStep ≠ .compute := nofun

theorem clockN_tickStart (C : Config) (v : Vfo) (f : Word32) (s : State) :
    clockN C (61 * C.settleCycles) (enterSlot C .pre 0 (tickStart C v f s)) = tickComputing C v f s := by
  have run := clockN_transaction C (tickStart_not_compute C v f s)
  rwa [endTransaction_tickStart, show (frameSeq (tickStart C v f s).txFrame).length = 61 from
    frameSeq_readFrame_length ..] at run

/-- No response before the COMPUTE cycle ends. -/
theorem rsp_before_computed (C : Config) (v : Vfo) (f : Word32) (s : State) {n : Nat} (hn : n < 61 * C.settleCycles + 1) :
    (clockN C n (enterSlot C .pre 0 (tickStart C v f s))).rsp.valid = false := by
  rcases Nat.eq_or_lt_of_le (Nat.le_of_lt_succ hn) with rfl | reading
  · rw [clockN_tickStart]
    simp [tickComputing, agcReadRssi, regRead]
  · rw [rsp_within C (tickStart_not_compute C v f s) (by
      rwa [show (frameSeq (tickStart C v f s).txFrame).length = 61 from frameSeq_readFrame_length ..])]
    simp [tickStart]

theorem clock_tickComputing (C : Config) (v : Vfo) (f : Word32) (s : State) :
    clock C (tickComputing C v f s) = computeCycle C (tickComputing C v f s) := clock_compute C rfl

section
variable (C : Config) {v : Vfo} {f : Word32} {s : State}
  (h : agcWrites C ((tickComputed C v f (s.latch (agcTickWord v true f))).trk v) = true)
include h

/-- From the COMPUTE cycle on, the gain write's transaction. -/
theorem clockN_after_computing (n : Nat) :
    clockN C (61 * C.settleCycles + 1 + n) (enterSlot C .pre 0 (tickStart C v f s))
      = clockN C n (enterSlot C .pre 0 (gainStart C v f s)) := by
  rw [clockN_add, clockN_add, clockN_tickStart, clockN_one, clock_tickComputing,
    computeCycle_tickComputing_of_writes C h]

theorem clockN_tick_of_writes : clockN C (137 * C.settleCycles + 1) (enterSlot C .pre 0 (tickStart C v f s))
    = agcTickOn C v true f s := by
  have run := clockN_transaction C (s := gainStart C v f s) nofun
  rw [endTransaction_gainStart C h, show (frameSeq (gainStart C v f s).txFrame).length = 76 from
    frameSeq_writeFrame_length ..] at run
  rw [show 137 * C.settleCycles + 1 = 61 * C.settleCycles + 1 + 76 * C.settleCycles by ring,
    clockN_after_computing C h, run]

theorem rsp_of_writes {n : Nat} (hn : n < 137 * C.settleCycles + 1) :
    (clockN C n (enterSlot C .pre 0 (tickStart C v f s))).rsp.valid = false := by
  rcases Nat.lt_or_ge n (61 * C.settleCycles + 1) with before | after
  · exact rsp_before_computed C v f s before
  · obtain ⟨m, rfl⟩ := Nat.exists_eq_add_of_le after
    rw [clockN_after_computing C h, rsp_within C (s := gainStart C v f s) nofun (by
      rw [show (frameSeq (gainStart C v f s).txFrame).length = 76 from frameSeq_writeFrame_length ..]
      omega)]
    simp [gainStart, tickComputed, agcReadRssi, regRead]

end

theorem clockN_tick_of_no_write (C : Config) {v : Vfo} {f : Word32} {s : State}
    (h : agcWrites C ((tickComputed C v f (s.latch (agcTickWord v true f))).trk v) = false) :
    clockN C (61 * C.settleCycles + 1) (enterSlot C .pre 0 (tickStart C v f s)) = agcTickOn C v true f s := by
  rw [clockN_add, clockN_tickStart, clockN_one, clock_tickComputing, computeCycle_tickComputing_of_no_write C h]

/-- Settles O16: the RSSI read, the COMPUTE cycle, and the gain write exactly if step 8 writes. -/
theorem agcTickLatencyAndRefinement : Obligations.AgcTickLatencyAndRefinement := by
  intro C v f s hpos _ t cycles
  have start : (tickStart C v f s).pins = s.pins := by simp [tickStart]
  have phases : RunsThePhases C s.pins (enterSlot C .pre 0 (tickStart C v f s)) :=
    start ▸ runsThePhases_enter C (tickStart_not_compute C v f s)
  have writes := agcTickOn_history_length C v f s
  rw [offer_agcTickWord C v f hpos]
  refine ⟨?state, fun n hn => ?quiet, rfl, rfl, phases, ?computing, fun hlength => ?gain⟩
  case state =>
    by_cases hlength : t.history.length = s.history.length + 2
    · simp only [cycles, if_pos hlength]
      exact clockN_tick_of_writes C (writes.mp hlength)
    · simp only [cycles, if_neg hlength]
      exact clockN_tick_of_no_write C (Bool.eq_false_iff.mpr (mt writes.mpr hlength))
  case quiet =>
    by_cases hlength : t.history.length = s.history.length + 2
    · exact rsp_of_writes C (writes.mp hlength) (by simpa only [cycles, if_pos hlength] using hn)
    · exact rsp_before_computed C v f s (by simpa only [cycles, if_neg hlength] using hn)
  case computing =>
    rw [clockN_tickStart]
    rfl
  case gain =>
    have h := writes.mp hlength
    rw [clockN_tickStart, clock_tickComputing, computeCycle_tickComputing_of_writes C h]
    have pins : (gainStart C v f s).pins = (tickComputing C v f s).pins := by
      simp [gainStart, tickComputing, tickComputed]
    refine ⟨?frame, rfl, pins ▸ runsThePhases_enter C (s := gainStart C v f s) nofun⟩
    simp only [t, agcTickOn_of_writes C h, State.respond_txFrame, agcApply_txFrame, regWrite_txFrame]
    rfl

/-! ## Every command ends -/

/-- From a slot of a transaction its end is at most the whole transaction away. -/
theorem transaction_ends {C : Config} {s : State} (h : Inv C s) (hphase : s.pos.phase ≠ .idle)
    (hstep : s.pos.agcStep ≠ .compute) : ∃ n ≤ (frameSeq s.txFrame).length * C.settleCycles, ∃ u,
      clockN C n s = endTransaction C u ∧ u.pos.op = s.pos.op ∧ u.pos.agcStep = s.pos.agcStep := by
  obtain ⟨k, hk⟩ := List.mem_iff_getElem?.mp (h.slot hphase)
  obtain ⟨hlt, -⟩ := List.getElem?_eq_some_iff.mp hk
  let slots := (frameSeq s.txFrame).drop k
  have entered : enterSlot C s.pos.phase s.pos.bit s = { s with settle := C.settleCycles - 1 } := by
    rw [enterSlot, ← h.pins]
  have arrived : clockN C (C.settleCycles - 1 - s.settle) (enterSlot C s.pos.phase s.pos.bit s) = s := by
    have settle := h.settle
    rw [entered, clockN_counting C (s := { s with settle := C.settleCycles - 1 }) hphase hstep (Nat.sub_le ..)]
    show ({ s with settle := C.settleCycles - 1 - (C.settleCycles - 1 - s.settle) } : State) = s
    rw [Nat.sub_sub_self (Nat.le_sub_one_of_lt settle)]
  have ended := clockN_chain_end C (l := slots) ((isChain_frameSeq s.txFrame).drop k) hstep
    (first := (s.pos.phase, s.pos.bit)) (by rwa [List.getElem?_drop])
  have length : slots.length = (frameSeq s.txFrame).length - k := List.length_drop
  have enough : C.settleCycles ≤ slots.length * C.settleCycles := Nat.le_mul_of_pos_left _ (by omega)
  rw [← Nat.add_sub_of_le (show C.settleCycles - 1 - s.settle ≤ slots.length * C.settleCycles by omega), clockN_add,
    arrived] at ended
  refine ⟨_, ?_, slotsDone C slots s, ended, slotsDone_op .., slotsDone_agcStep ..⟩
  exact Nat.le_trans (Nat.sub_le ..) (Nat.mul_le_mul_right _ (length ▸ Nat.sub_le ..))

theorem frameSeq_length_le (f : Frame) : (frameSeq f).length ≤ 76 := by
  unfold frameSeq
  split <;> decide

/-- A gain write of a tick in progress ends in IDLE. -/
theorem gain_write_ends (C : Config) {s : State} (hop : s.pos.op = .agcTick) (hstep : s.pos.agcStep = .wrGain) (a : Addr)
    (d : Word16) : (clockN C (76 * C.settleCycles) (startFrame C (writeFrame a d) s)).idle = true := by
  have run := clockN_transaction C (s := { s with txFrame := writeFrame a d }) (by rw [hstep]; decide)
  rw [frameSeq_writeFrame_length] at run
  have ended := endTransaction_wrGain C (s := transactionDone C { s with txFrame := writeFrame a d }) hop hstep
  exact (congrArg State.idle (run.trans ended)).trans rfl

/-- From the COMPUTE cycle the tick ends at most a write transaction later. -/
theorem computing_ends {C : Config} {s : State} (hop : s.pos.op = .agcTick) (hstep : s.pos.agcStep = .compute) :
    ∃ n ≤ 76 * C.settleCycles + 1, (clockN C n s).idle = true := by
  rcases computeCycle_cases C s with ⟨-, e⟩ | ⟨-, e⟩ <;> rw [← clock_compute C hstep] at e
  · refine ⟨1 + 76 * C.settleCycles, by omega, ?_⟩
    rw [clockN_add, clockN_one, e]
    exact gain_write_ends C (s := { agcComputeOn C s.tickVfo s with pos := { s.pos with agcStep := .wrGain } }) hop rfl ..
  · refine ⟨1, by omega, ?_⟩
    rw [clockN_one, e]
    rfl

/-- Settles O19: the rest of the transaction in progress, and for the RSSI read of a tick the COMPUTE cycle and the gain
write after it. -/
theorem everyCommandEndsInIdle : Obligations.EveryCommandEndsInIdle := by
  intro C s h
  by_cases hidle : s.idle = true
  · exact ⟨0, Nat.zero_le _, hidle⟩
  rw [Bool.not_eq_true] at hidle
  by_cases hstep : s.pos.agcStep = .compute
  · have command := h.command (by rw [h.compute hstep]; decide)
    obtain ⟨n, hn, ends⟩ := computing_ends (C := C) (op_of_compute (hstep ▸ command)) hstep
    exact ⟨n, by omega, ends⟩
  have hphase := phase_ne_idle_of_busy hidle hstep
  obtain ⟨n, hn, u, run, op, step⟩ := transaction_ends h hphase hstep
  have bound : n ≤ 76 * C.settleCycles := Nat.le_trans hn (Nat.mul_le_mul_right _ (frameSeq_length_le _))
  obtain ⟨hop, -, -⟩ | ⟨hop, -, -⟩ | ⟨hop, hread, read⟩ | ⟨-, compute, -⟩ | ⟨hop, hwrite, -⟩ :=
    commandReads_cases (h.command hphase)
  · exact ⟨n, by omega, by rw [run, endTransaction_write C (op.trans hop)]; rfl⟩
  · exact ⟨n, by omega, by rw [run, endTransaction_read C (op.trans hop)]; rfl⟩
  · rw [frameSeq_read read, readSeq_length] at hn
    rw [endTransaction_rdRssi C (op.trans hop) (step.trans hread)] at run
    obtain ⟨m, hm, ends⟩ := computing_ends (C := C) (s := clockN C n s) (by rw [run]; exact op.trans hop) (by rw [run])
    exact ⟨n + m, by omega, by rw [clockN_add, ends]⟩
  · exact absurd compute hstep
  · exact ⟨n, by omega, by rw [run, endTransaction_wrGain C (op.trans hop) (step.trans hwrite)]; rfl⟩

end Sys2Proof.Machine
end

section
/-! SUPPORT, and the proof of O60. What one move of the host, and a run of moves with no reset, leave of a VFO's AGC: its
own receiving tick serves it, and every other move leaves it alone (43 R190, R208, 70 R275, R276). -/

namespace Sys2Proof.Machine

/-! ## A VFO left alone, and a VFO served -/

/-- From `s` to `t` the AGC of VFO `v` did nothing. -/
structure LeftAlone (v : Vfo) (s t : State) : Prop where
  trk      : t.trk v = s.trk v
  lastFreq : t.lastFreq v = s.lastFreq v
  history  : ∃ l, t.history = s.history ++ l ∧ l.filter (fun e => e.origin == .agc v) = []

/-- The transactions of a receiving tick (43 R190). -/
def tickTransactions : List (EventKind × Addr) := [(.rd, Config.board.rssiReg), (.wr, Config.board.gainReg)]

/-- From `s` to `t` the AGC of VFO `v` ran one receiving tick, with frequency `f`. -/
structure Served (v : Vfo) (f : Word32) (s t : State) : Prop where
  lastFreq : t.lastFreq v = some f
  valid    : t.appliedValidOut v = true
  history  : ∃ l, t.history = s.history ++ l ∧
    (l.filter fun e => e.origin == .agc v).map (fun e => (e.kind, e.addr)) = tickTransactions

theorem leftAlone_refl (v : Vfo) (s : State) : LeftAlone v s s := ⟨rfl, rfl, [], (List.append_nil _).symm, rfl⟩

theorem LeftAlone.trans {v : Vfo} {s t u : State} (h : LeftAlone v s t) (k : LeftAlone v t u) : LeftAlone v s u := by
  obtain ⟨l, hl, none⟩ := h.history
  obtain ⟨m, hm, none'⟩ := k.history
  exact ⟨k.trk.trans h.trk, k.lastFreq.trans h.lastFreq, l ++ m, by rw [hm, hl, List.append_assoc],
    by rw [List.filter_append, none, none', List.append_nil]⟩

theorem LeftAlone.served {v : Vfo} {f : Word32} {s t u : State} (h : LeftAlone v s t) (k : Served v f t u) :
    Served v f s u := by
  obtain ⟨l, hl, none⟩ := h.history
  obtain ⟨m, hm, ticked⟩ := k.history
  exact ⟨k.lastFreq, k.valid, l ++ m, by rw [hm, hl, List.append_assoc],
    by rw [List.filter_append, none, List.nil_append, ticked]⟩

theorem Served.leftAlone {v : Vfo} {f : Word32} {s t u : State} (h : Served v f s t) (k : LeftAlone v t u) :
    Served v f s u := by
  obtain ⟨l, hl, ticked⟩ := h.history
  obtain ⟨m, hm, none⟩ := k.history
  exact ⟨k.lastFreq.trans h.lastFreq, by rw [State.appliedValidOut, k.trk]; exact h.valid, l ++ m,
    by rw [hm, hl, List.append_assoc], by rw [List.filter_append, none, List.append_nil, ticked]⟩

/-! ## One instruction -/

theorem executed_pos {s t : State} {i : Instr} (h : Executed s i t) (hs : s.pos = Pos.start) : t.pos = Pos.start := by
  cases h with
  | host h => exact h.pos hs
  | frameWrite | frameRead => rfl
  | agcTick v rx f => cases rx <;> rfl

theorem executed_port {s t : State} {i : Instr} (h : Executed s i t) : t.port = s.port := by
  cases h with
  | host h => exact h.sameAgc.port
  | frameWrite | frameRead => rfl
  | agcTick v rx f => exact agcTickOn_board_port v rx f s

theorem leftAlone_of_sameAgc {v : Vfo} {s t : State} (h : SameAgc s t) {l : List Event} (hl : t.history = s.history ++ l)
    (hosts : ∀ e ∈ l, e.origin = .host) : LeftAlone v s t := by
  refine ⟨h.trk v, h.lastFreq v, l, hl, List.filter_eq_nil_iff.mpr fun e he => ?_⟩
  rw [hosts e he]
  exact Bool.false_ne_true

/-- Between commands a bare frame is the host's own (20 R68). -/
theorem origin_of_start {s : State} (h : s.pos = Pos.start) : s.origin = .host := by
  rw [State.origin, h]
  rfl

theorem agcTickOn_leftAlone {u v : Vfo} (h : v ≠ u) (rx : Bool) (f : Word32) (s : State) :
    LeftAlone v s (agcTickOn Config.board u rx f s) := by
  obtain ⟨trk, freq⟩ := agcTickOn_board_other h rx f s
  refine ⟨trk, freq, ?_⟩
  cases rx with
  | false => exact ⟨[], (List.append_nil _).symm, rfl⟩
  | true => exact ⟨_, agcTickOn_board_history u f s, by simp [h.symm]⟩

theorem agcTickOn_served (v : Vfo) (f : Word32) (s : State) : Served v f s (agcTickOn Config.board v true f s) :=
  ⟨agcTickOn_board_lastFreq .., by rw [State.appliedValidOut, agcTickOn_board_trk]; rfl, _, agcTickOn_board_history ..,
    by simp [tickTransactions]⟩

/-- An instruction that is no tick of `v` leaves it alone. -/
theorem executed_leftAlone {v : Vfo} {s t : State} {i : Instr} (h : Executed s i t) (hs : s.pos = Pos.start)
    (hi : ∀ rx f, i ≠ .agcTick v rx f) : LeftAlone v s t := by
  have host := origin_of_start hs
  cases h with
  | host h =>
    obtain ⟨l, hl, hosts⟩ := h.history
    exact leftAlone_of_sameAgc h.sameAgc hl hosts
  | frameWrite a d =>
    exact leftAlone_of_sameAgc (sameAgc_frameWriteOn ..) (by rw [frameWriteOn_eq]) (by simpa using host)
  | frameRead a d =>
    exact leftAlone_of_sameAgc (sameAgc_frameReadOn ..) (by rw [frameReadOn_eq]) (by simpa using host)
  | agcTick u rx f => exact agcTickOn_leftAlone (fun same => hi rx f (by rw [same])) rx f s

/-! ## One move -/

/-- The AGC_TICK of `v` that a move is, if it is one. -/
def Request.tickOf (v : Vfo) (m : Request) : Option TickOperands := m.tick.filter fun t => t.vfo == v

/-- A step between commands runs the move's instruction, or refuses an illegal word. -/
theorem step_move {s : State} (hs : s.pos = Pos.start) {m : Request} {rest : List Request} (hport : s.port = m :: rest)
    (hm : m ≠ .rst) :
    (∃ i, m.instr = some i ∧ step s = exec i { s with port := rest }) ∨
    (m.instr = none ∧ ∃ c r, step s = .next ((({ s with port := rest } : State).latch c).refuse r)) := by
  have hidle := idle_of_start hs
  cases m with
  | rst => exact absurd rfl hm
  | line i => exact .inl ⟨i, rfl, step_line hidle hport⟩
  | frame f => exact .inl ⟨_, rfl, step_frame hidle hport⟩
  | word c =>
    cases hc : decodeWord c with
    | ok i => exact .inl ⟨i, by rw [Request.instr, decodeEncoded, hc], step_word hidle hport hc⟩
    | error r => exact .inr ⟨by rw [Request.instr, decodeEncoded, hc], c, r, step_illegal_word hidle hport hc⟩

theorem tickOf_of_instr {v : Vfo} {rx : Bool} {f : Word32} {m : Request} (h : m.instr = some (.agcTick v rx f)) :
    m.tickOf v = some ⟨v, rx, f⟩ := by
  simp [Request.tickOf, Request.tick, h]

theorem instr_of_tickOf {v : Vfo} {m : Request} {o : TickOperands} (h : m.tickOf v = some o) :
    m.instr = some (.agcTick v o.rx o.freq) := by
  obtain ⟨tick, own⟩ := Option.filter_eq_some_iff.mp h
  cases hi : m.instr with
  | none => simp [Request.tick, hi] at tick
  | some i =>
    cases i with
    | agcTick u rx f =>
      cases (show some (TickOperands.mk u rx f) = some o by simpa [Request.tick, hi] using tick)
      cases beq_iff_eq.mp own
      rfl
    | _ => simp [Request.tick, hi] at tick

/-- One move but a reset is taken in one step, which ends between commands; it leaves `v` alone or is its tick. -/
theorem step_of_move (v : Vfo) {s : State} (hs : s.pos = Pos.start) {m : Request} {rest : List Request}
    (hport : s.port = m :: rest) (hm : m ≠ .rst) : ∃ t, step s = .next t ∧ t.pos = Pos.start ∧ t.port = rest ∧
    (m.tickOf v = none → LeftAlone v s t) ∧ (∀ f, m.tickOf v = some ⟨v, true, f⟩ → Served v f s t) := by
  rcases step_move hs hport hm with ⟨i, hi, hstep⟩ | ⟨hi, c, r, hstep⟩
  · obtain ⟨t, ht, executed⟩ := exec_executed i { s with port := rest }
    refine ⟨t, hstep.trans ht, executed_pos executed hs, executed_port executed, fun none => ?_, fun f tick => ?_⟩
    · have no (rx : Bool) (f : Word32) : i ≠ .agcTick v rx f := fun e => by
        rw [tickOf_of_instr (hi.trans (congrArg some e))] at none
        cases none
      obtain ⟨trk, freq, history⟩ := executed_leftAlone executed hs no
      exact ⟨trk, freq, history⟩
    · cases hi.symm.trans (instr_of_tickOf tick)
      cases ht
      obtain ⟨freq, valid, history⟩ := agcTickOn_served v f { s with port := rest }
      exact ⟨freq, valid, history⟩
  · refine ⟨_, hstep, rfl, rfl, fun _ => ?_, fun f tick => ?_⟩
    · obtain ⟨trk, freq, history⟩ := leftAlone_refl v s
      exact ⟨trk, freq, history⟩
    · cases hi.symm.trans (instr_of_tickOf tick)

/-! ## A run of moves -/

theorem stepN_succ {s t : State} (h : step s = .next t) (n : Nat) : stepN (n + 1) s = stepN n t := by
  rw [stepN, h]

/-- A run of moves with no reset takes them all; without a tick of `v` it leaves `v` alone, and with one it serves it. -/
theorem stepN_moves (v : Vfo) {moves : List Request} (hrst : Request.rst ∉ moves) {s : State} (hs : s.pos = Pos.start)
    (hport : s.port = moves) : let t := stepN moves.length s
    t.pos = Pos.start ∧ t.port = [] ∧ (moves.filterMap (Request.tickOf v) = [] → LeftAlone v s t) ∧
    (∀ f, moves.filterMap (Request.tickOf v) = [⟨v, true, f⟩] → Served v f s t) := by
  induction moves generalizing s with
  | nil => exact ⟨hs, hport, fun _ => leftAlone_refl v s, nofun⟩
  | cons m rest ih =>
    obtain ⟨hm, hrest⟩ := not_or.mp (List.mem_cons.not.mp hrst)
    obtain ⟨t, hstep, pos, port, alone, served⟩ := step_of_move v hs hport (Ne.symm hm)
    obtain ⟨endPos, endPort, restAlone, restServed⟩ := ih hrest pos port
    simp only [List.length_cons, stepN_succ hstep]
    refine ⟨endPos, endPort, ?_⟩
    cases htick : m.tickOf v with
    | none =>
      rw [List.filterMap_cons_none htick]
      exact ⟨fun none => (alone htick).trans (restAlone none), fun f one => (alone htick).served (restServed f one)⟩
    | some o =>
      rw [List.filterMap_cons_some htick]
      refine ⟨nofun, fun f one => ?_⟩
      obtain ⟨rfl, none⟩ := List.cons.inj one
      exact (served f htick).leftAlone (restAlone none)

/-- The only tick of a live receiving VFO is the true one (70 R275, R276). -/
theorem dutiful_tick {ctx : TickContext} {moves : List Request} {v : Vfo} (once : ticksOnce ctx moves = true)
    (truly : ticksTruly ctx moves = true) (live : (ctx.vfo v).live = true) (receiving : (ctx.vfo v).receiving = true) :
    moves.filterMap (Request.tickOf v) = [⟨v, true, (ctx.vfo v).tuned⟩] := by
  have own : moves.filterMap (Request.tickOf v) = (moves.filterMap Request.tick).filter fun t => t.vfo == v :=
    List.filter_filterMap.symm
  have single := List.all_eq_true.mp once v (by cases v <;> decide)
  rw [live, Bool.not_true, Bool.false_or, beq_iff_eq, List.length_eq_one_iff] at single
  obtain ⟨⟨u, rx, f⟩, hone⟩ := single
  obtain ⟨mem, same⟩ := List.mem_filter.mp (hone ▸ List.mem_singleton_self _)
  cases beq_iff_eq.mp same
  have isTrue := List.all_eq_true.mp truly _ mem
  simp only [receiving, Bool.and_eq_true, beq_iff_eq] at isTrue
  obtain ⟨rfl, rfl⟩ := isTrue
  exact own.trans hone

/-- Settles O60: the run of moves, with the one tick that the duties leave. -/
theorem dutifulTickServesEachReceivingVfo : Obligations.DutifulTickServesEachReceivingVfo := by
  intro ctx moves s v hs hport once truly hrst live receiving
  rw [runHostTick, hport, List.nil_append]
  obtain ⟨pos, port, -, served⟩ := stepN_moves v hrst (s := { s with port := moves }) hs rfl
  obtain ⟨freq, valid, history⟩ := served _ (dutiful_tick once truly live receiving)
  exact ⟨pos, port, freq, valid, history⟩

end Sys2Proof.Machine
end
